-- ==== Sys2Proof/Word.lean ====
section
/-! DEFINITION. The widths of SMFE: a byte of the frame, a segment mask, a character word (R9, R13, R63). -/

namespace Sys2Proof

/-- A byte of the frame: 8 bits (R9, R25). -/
abbrev Byte := BitVec 8

/-- A segment mask: "an unsigned 16-bit value" (R9, R13, R70). -/
abbrev Mask := BitVec 16

/-- A character word of the request port: 32 bits, `CHAR_WIDTH` at its value (R10, R61, R63, decision D2).
Every 32-bit value is a legal operand (R72); the ones outside the table's domain have no entry. -/
abbrev Ch := BitVec 32

/-- A slot as it stands on a port: 17 bits, `mask` in [15:0] and `dot` in bit 16 (R64). -/
abbrev SlotWord := BitVec 17

end Sys2Proof
end

