-- ==== Sys2Proof/Config.lean ====
section
/-! DEFINITION. What a realisation fixes: the parameters of R10 with the spec's defaults, and the
values the spec leaves OPEN, as constants without a body (decisions D3, D4). -/

namespace Sys2Proof

/-- `DP_BYTE_OFFSET`: the byte of a slot the decimal point lands in, one of the two values R10 allows. -/
inductive DpByteOffset where
  | one   -- the low byte, `frame[2i+1]`: the source's value (R124)
  | two   -- the high byte, `frame[2i+2]`: the general-knowledge alternative (decision D6)
  deriving DecidableEq, Repr

/-- The parameters of R10 that are not values of the table. The machine holds them in its state and runs
with whatever values stand there (notes/assumptions/2.md). -/
structure Params where
  /-- `DP_BYTE_OFFSET` (decision D6). -/
  dpByteOffset : DpByteOffset
  /-- `DP_BIT`, 0..7 (decision D6). -/
  dpBit : Fin 8
  /-- `CHAR_WIDTH`: how many of the 32 bits of a character word the port carries (decision D2). -/
  charWidth : Fin 33
  /-- `TEXT_MAX`: a bound on the length of a text; `none` is "unbounded" (decision D12). -/
  textMax : Option Nat
  deriving DecidableEq, Repr

/-- The parameters at the values R10 gives: `DP_BYTE_OFFSET = 1`, `DP_BIT = 6`, `CHAR_WIDTH = 32`,
`TEXT_MAX` unbounded (R124, decisions D2, D6 and D12). The state after reset holds these. -/
def Config.params : Params := { dpByteOffset := .one, dpBit := 6, charWidth := 32, textMax := none }

/-- The entries of `SEG_MAP` the source does not state, by character code: OPEN (R104, decision D3).
A free value: no body, so nothing can be proved of it (notes/assumptions/1.md). -/
opaque Config.segMapOpen : Nat → Mask

/-- `MASK_ALL_ON`, the "all segments on" sentinel: OPEN (R107, decision D4; notes/assumptions/1.md). -/
opaque Config.maskAllOn : Mask

/-- `MASK_BLANK`, the "all segments off" sentinel (R106). -/
def Config.maskBlank : Mask := 0x0000#16

/-- The entry of `SEG_MAP` at a character code of its domain: three values are fixed (R103), every
other is OPEN (R104). -/
def Config.segMapEntry (code : Nat) : Mask :=
  if code = 0x20 then 0x0000#16
  else if code = 0x30 then 0x0C3F#16
  else if code = 0x41 then 0x00F7#16
  else Config.segMapOpen code

/-- `SEG_MAP`: one mask for each of the 95 supported characters, code `0x20` first (R101, R105).
Complete by its type (R242). -/
def Config.segMap : Vector Mask 95 :=
  ⟨((List.range 95).map fun i => Config.segMapEntry (0x20 + i)).toArray, by simp⟩

end Sys2Proof
end

