-- ==== Sys2Proof/Syntax.lean ====
section
/-! DEFINITION. The operations of SMFE's request port, one constructor for each row of the opcode
table (R3, R62), with the operands R61 gives each. -/

namespace Sys2Proof

/-- A slot: a mask and its decimal point (R13, R24, R64). -/
structure Slot where
  mask : Mask
  dot  : Bool
  deriving DecidableEq, Repr

/-- A text: a finite sequence of characters of any length, 0 included (R13, R65). -/
abbrev Text := List Ch

/-- The operations, with the operand of each (R61, R62). -/
inductive Instr where
  /-- `op = 000`, LOOKUP (R100): one character. -/
  | lookup (ch : Ch)
  /-- `op = 001`, ENCODE_SLOTS (R120): a list of slots of any length (R64). -/
  | encodeSlots (slots : List Slot)
  /-- `op = 010`, CLEAR_FRAME (R127): no operand. -/
  | clearFrame
  /-- `op = 011`, TEXT_TO_SLOTS (R140): a text. -/
  | textToSlots (text : Text)
  /-- `op = 100`, ENCODE_TEXT (R151): a text. -/
  | encodeText (text : Text)
  /-- `op = 101`, reserved (R71): its operand, whatever it is, is never examined (R208). -/
  | reserved101
  /-- `op = 110`, reserved (R71). -/
  | reserved110
  /-- `op = 111`, reserved (R71). -/
  | reserved111
  deriving DecidableEq, Repr

end Sys2Proof
end

