-- ==== Sys2Proof/Decode.lean ====
section
/-! DEFINITION. The request format REQ (R61 to R65, R73): the raw record on the request port, the
decoder, total on every such record and rejecting by name, and after it the encoder. -/

namespace Sys2Proof

/-- A request record as it stands on the request port: the fields of format REQ (R60, R61). An operand
field an operation does not use is ABSENT, "not zero" (R61), which is `none`; the length of a list
is carried with it (R73), here by the list itself. The spec gives the record no further layout in
bits or bytes (notes/assumptions/3.md). -/
structure RawRequest where
  /-- `op`, 3 bits. -/
  op    : BitVec 3
  /-- `ch`, 32 bits: LOOKUP only. -/
  ch    : Option Ch
  /-- `slots`, n x 17 bits: ENCODE_SLOTS only. -/
  slots : Option (List SlotWord)
  /-- `text`, m x 32 bits: TEXT_TO_SLOTS and ENCODE_TEXT only. -/
  text  : Option (List Ch)
  deriving DecidableEq, Repr

/-- Why a raw record is no request of format REQ. -/
inductive DecodeError where
  /-- The operand field that `op` selects is absent (R61). -/
  | missingOperand
  /-- An operand field that `op` does not select is present (R61: "absent (not zero)"). -/
  | strayOperand
  deriving DecidableEq, Repr

/-- A slot read from its 17-bit word: `mask` in bits [15:0], `dot` in bit 16 (R64). -/
def Slot.ofWord (w : SlotWord) : Slot := { mask := w.extractLsb' 0 16, dot := w.getLsbD 16 }

/-- The operation a request asks for. The op code is checked before any operand is examined (R208), so
a reserved code decodes to its own row whatever operand comes with it; for the other codes the
operand is the one field `op` selects and the others are absent (R61, R62). -/
def decode (r : RawRequest) : Except DecodeError Instr :=
  match r.op.toFin with
  | 0 =>
    match r.ch, r.slots, r.text with
    | some c, none, none => .ok (.lookup c)
    | none, _, _ => .error .missingOperand
    | some _, _, _ => .error .strayOperand
  | 1 =>
    match r.slots, r.ch, r.text with
    | some ws, none, none => .ok (.encodeSlots (ws.map Slot.ofWord))
    | none, _, _ => .error .missingOperand
    | some _, _, _ => .error .strayOperand
  | 2 =>
    match r.ch, r.slots, r.text with
    | none, none, none => .ok .clearFrame
    | _, _, _ => .error .strayOperand
  | 3 =>
    match r.text, r.ch, r.slots with
    | some t, none, none => .ok (.textToSlots t)
    | none, _, _ => .error .missingOperand
    | some _, _, _ => .error .strayOperand
  | 4 =>
    match r.text, r.ch, r.slots with
    | some t, none, none => .ok (.encodeText t)
    | none, _, _ => .error .missingOperand
    | some _, _, _ => .error .strayOperand
  | 5 => .ok .reserved101
  | 6 => .ok .reserved110
  | 7 => .ok .reserved111

/-- The operation selector of an instruction: the table of R62. -/
def Instr.op : Instr → BitVec 3
  | .lookup _ => 0b000#3
  | .encodeSlots _ => 0b001#3
  | .clearFrame => 0b010#3
  | .textToSlots _ => 0b011#3
  | .encodeText _ => 0b100#3
  | .reserved101 => 0b101#3
  | .reserved110 => 0b110#3
  | .reserved111 => 0b111#3

/-- The 17-bit word of a slot: `dot` above `mask` (R64). -/
def Slot.toWord (s : Slot) : SlotWord := BitVec.ofBool s.dot ++ s.mask

/-- A request record with no operand field. -/
def RawRequest.bare (op : BitVec 3) : RawRequest :=
  { op := op, ch := none, slots := none, text := none }

/-- The request record of an instruction (R61 to R65). A reserved code is encoded with no operand. -/
def encode (i : Instr) : RawRequest :=
  match i with
  | .lookup c => { RawRequest.bare i.op with ch := some c }
  | .encodeSlots l => { RawRequest.bare i.op with slots := some (l.map Slot.toWord) }
  | .clearFrame => RawRequest.bare i.op
  | .textToSlots t => { RawRequest.bare i.op with text := some t }
  | .encodeText t => { RawRequest.bare i.op with text := some t }
  | .reserved101 => RawRequest.bare i.op
  | .reserved110 => RawRequest.bare i.op
  | .reserved111 => RawRequest.bare i.op

/-- The request record of an opcode-table word: the table gives an instruction the bits [2:0] of `op`
and no others, so the selector is read from them and the operand is the one of zeros, the character
0 or the empty list (notes/assumptions/3.md). -/
def tableRequest (w : Nat) : RawRequest :=
  let op := BitVec.ofNat 3 w
  { op := op
    ch := if op = 0b000#3 then some 0#32 else none
    slots := if op = 0b001#3 then some [] else none
    text := if op = 0b011#3 ∨ op = 0b100#3 then some [] else none }

/-- The instruction the decoder reads from an opcode-table word (the name is the host's). The table
gives every row 3 bits, so `nbits` plays no part: the bits above [2:0] belong to no field. -/
def decodeTableWord (_nbits w : Nat) : Option Instr :=
  match decode (tableRequest w) with
  | .ok i => some i
  | .error _ => none

end Sys2Proof
end

