-- ==== Sys2Proof/WellFormed.lean ====
section
/-! DEFINITION. Which requests a realisation admits. "Within a valid operation, no operand value is
reserved" (R72), and the widths of R61 are in the types, so what is left to check are the two bounds a
realisation may set: `CHAR_WIDTH` on a character word (R10, decision D2) and `TEXT_MAX` on the length
of a text (R10, decision D12). -/

namespace Sys2Proof

/-- Which bound of a realisation a request is outside. -/
inductive BoundError where
  /-- A character word that does not fit the `CHAR_WIDTH` bits of the character field (R10, D2). -/
  | characterBeyondWidth
  /-- A text longer than `TEXT_MAX` (R10, D12). -/
  | textBeyondMax
  deriving DecidableEq, Repr

/-- A character word fits the character field (R10, D2); with `CHAR_WIDTH = 32` every one does. -/
def charWithin (p : Params) (c : Ch) : Bool := decide (c.toNat < 2 ^ p.charWidth.val)

/-- A text is within the bound `TEXT_MAX`; `none` is the default, unbounded (R10, R65, D12). -/
def textWithin (p : Params) (text : Text) : Bool :=
  match p.textMax with
  | none => true
  | some bound => decide (text.length ≤ bound)

/-- The bound a text is outside, if any. -/
def textOutside (p : Params) (text : Text) : Option BoundError :=
  if text.all (charWithin p) then
    if textWithin p text then none else some .textBeyondMax
  else some .characterBeyondWidth

/-- The bound of the realisation an instruction is outside, if any; nothing else is restricted (R72). -/
def Instr.outside (p : Params) : Instr → Option BoundError
  | .lookup ch => if charWithin p ch then none else some .characterBeyondWidth
  | .encodeSlots _ => none
  | .clearFrame => none
  | .textToSlots text => textOutside p text
  | .encodeText text => textOutside p text
  | .reserved101 => none
  | .reserved110 => none
  | .reserved111 => none

/-- The check under given parameters. -/
def Instr.wellFormed (p : Params) (i : Instr) : Bool := (i.outside p).isNone

/-- Well-formed under the values R10 gives. -/
abbrev WellFormed (i : Instr) : Prop := i.wellFormed Config.params = true

end Sys2Proof
end

