-- ==== Sys2Proof/Machine/State.lean ====
section
/-! DEFINITION. The state of SMFE as plain data: the parameters of the realisation (R10), the constant
table and sentinels (R20), the working registers (R23 to R26), the two ports (R60), and the caller outside. The reasons to stop, and reset. -/

namespace Sys2Proof.Machine

/-- The 9-byte frame, `frame[0]` first (R25, R68). -/
abbrev Frame := Vector Byte 9

/-- The errors SMFE raises (R200), each with the information its rule records (decision D11). -/
inductive SmfeError where
  /-- A character to be looked up has no entry: the character word and its index, 0 for LOOKUP (R201). -/
  | unsupportedCharacter (ch : Ch) (index : Nat)
  /-- A fifth slot-consuming character: its index in the text (R202). -/
  | textTooLong (index : Nat)
  /-- ENCODE_SLOTS was given more than 4 slots: the length of the list (R204). -/
  | tooManySlots (n : Nat)
  /-- A reserved op code: the code (R205). -/
  | illegalOperation (op : BitVec 3)
  deriving DecidableEq, Repr

/-- The result of an operation that succeeds (R66). -/
inductive Result where
  /-- LOOKUP's 16-bit mask. -/
  | mask (m : Mask)
  /-- The 9-byte frame of ENCODE_SLOTS, CLEAR_FRAME and ENCODE_TEXT. -/
  | frame (f : Frame)
  /-- TEXT_TO_SLOTS's list of 0..4 slots. -/
  | slots (l : List Slot)
  deriving DecidableEq, Repr

/-- A response: a whole result or an error and never both, so nothing is ever delivered in part
(R47, R66, R203). -/
inductive Response where
  | ok (r : Result)
  | error (e : SmfeError)
  deriving DecidableEq, Repr

/-- What the caller, outside SMFE, does at its port: it presents a request (R60) or takes the response
waiting for it (R244). The order is the caller's (R27, R50). -/
inductive CallerAction where
  | present (r : RawRequest)
  | takeResponse
  deriving DecidableEq, Repr

/-- Why the machine stops with a fault. -/
inductive Fault where
  /-- A working register, or an entry of the slot buffer, was read while it holds no value (R24, I9).
  Raised by the register reads of Ops.lean. Safe: the machine stops; no rule performs such a read. -/
  | emptyRegisterRead
  deriving DecidableEq, Repr

/-- Why the machine gives a step no meaning. -/
inductive Refusal where
  /-- The instruction has no meaning yet; raised by exec's arm alone. Safe: the machine stops. -/
  | notModelled (mnemonic : String)
  /-- A request stands on the port while an earlier response is undelivered (R244, I5, decision D15:
  "refuses it"). Raised by step. Safe: the machine stops. -/
  | requestWhileBusy
  /-- The record on the port is no request of format REQ (R61). Raised by step. Safe: it stops. -/
  | malformedRequest (why : DecodeError)
  /-- The request is outside a bound the realisation sets, `CHAR_WIDTH` or `TEXT_MAX` (R10, D2, D12);
  never at the values R10 gives. Raised by step. Safe: the machine stops. -/
  | outsideParameters (why : BoundError)
  deriving DecidableEq, Repr

/-- Why an operation ends before its result: with one of SMFE's errors, which is a response (R203), or
with a fault of the machine. -/
inductive Halt where
  | error (e : SmfeError)
  | fault (f : Fault)
  deriving DecidableEq, Repr

/-- The state of SMFE (R32), its two ports (R60), and the caller's side of them. A working register
that holds no value is `none`: "holds no value until written", "no value between operations" (R32). -/
structure State where
  /-- The parameters of the realisation, with which every operation runs; never written (R10). -/
  params : Params
  /-- `SEG_MAP`, 95 masks, code `0x20` first; never written (R20, R101, R105). -/
  segMap : Vector Mask 95
  /-- `MASK_BLANK`; never written (R20, R106). -/
  maskBlank : Mask
  /-- `MASK_ALL_ON`; never written (R20, R107). -/
  maskAllOn : Mask
  /-- `k`, the slot counter, 0..4 (R23). -/
  k : Option (Fin 5)
  /-- `slot[0..3]`, the slot buffer, 17 bits an entry (R24). -/
  slot : Vector (Option Slot) 4
  /-- `frame[0..8]`, the frame buffer (R25). -/
  frame : Option Frame
  /-- `j`, the scan position (R26). -/
  j : Option Nat
  /-- The request port: the request in progress (R60, R240). -/
  request : Option RawRequest
  /-- The response port: the response not yet delivered (R60, R240). -/
  response : Option Response
  /-- The caller's: what it will do at the ports, next action first (the model's own field). -/
  script : List CallerAction
  /-- The caller's: the responses it has taken, oldest first (the model's own field). SMFE keeps no
  record of them (R21) and no operation reads it. -/
  received : List Response
  deriving DecidableEq, Repr

/-- The slot buffer with no entry holding a value (R141). -/
def emptySlots : Vector (Option Slot) 4 := #v[none, none, none, none]

/-- After reset: the table and the sentinels hold their constant values, no working register holds a
value, no request is in progress and no response is pending (R32, R240); the parameters are the values
R10 gives (notes/assumptions/2.md). The caller has done nothing and has nothing to do: its script is
given from outside. -/
def State.reset : State :=
  { params := Config.params
    segMap := Config.segMap
    maskBlank := Config.maskBlank
    maskAllOn := Config.maskAllOn
    k := none
    slot := emptySlots
    frame := none
    j := none
    request := none
    response := none
    script := []
    received := [] }

end Sys2Proof.Machine
end

