-- ==== Sys2Proof/Machine/Flags.lean ====
section
/-! DEFINITION. SMFE's only flag, the `dot` bit of a slot (R28), and the bit it becomes in the frame
(R124). There are no condition codes and no status register (R28, R29). -/

namespace Sys2Proof.Machine

/-- The code of the period, `'.'` (R142). -/
def periodCode : Ch := 0x2E#32

/-- A character is a period exactly when its code is `0x2E`; no other character counts as one (R142). -/
def isPeriod (c : Ch) : Bool := c == periodCode

/-- A slot as it is consumed: its mask, `dot` 0 (R145, R28). -/
def consumedSlot (m : Mask) : Slot := { mask := m, dot := false }

/-- A period attaches its decorator to a slot: `dot <- 1`; doing it twice is doing it once (R28, R144). -/
def withPoint (s : Slot) : Slot := { s with dot := true }

/-- `DP_BYTE_OFFSET` as the number 1 or 2 (R10). -/
def offsetOf : DpByteOffset → Nat
  | .one => 1
  | .two => 2

/-- The decorator bit within its byte, `1 << DP_BIT` (R124). -/
def pointBit (p : Params) : Byte := 1#8 <<< p.dpBit.val

end Sys2Proof.Machine
end

