-- ==== Sys2Proof/Machine/Ops.lean ====
section
/-! DEFINITION. The named operations over SMFE's state: reads and writes of the three indexed spaces
(R40 to R42) and the working registers, the end of an operation with a result or an error (R66, R203),
and what happens at the ports (R60, R244). -/

namespace Sys2Proof.Machine

/-! ### The table space -/

/-- A character of the table's domain: a code from `0x20` to `0x7E` (R101). -/
def supported (c : Ch) : Bool := decide (0x20 ≤ c.toNat ∧ c.toNat ≤ 0x7E)

/-- `SEG_MAP(c)`: one whole entry, or none outside the domain; a code is never truncated (R41, R63,
R102). -/
def State.tableRead (s : State) (c : Ch) : Option Mask :=
  if h : 0x20 ≤ c.toNat ∧ c.toNat ≤ 0x7E then some (s.segMap[c.toNat - 0x20]'(by omega)) else none

/-! ### The working registers: reading one that holds no value faults (R24, I9) -/

/-- `k`. -/
def State.readK (s : State) : Except Halt (Fin 5) :=
  match s.k with
  | some k => .ok k
  | none => .error (.fault .emptyRegisterRead)

/-- `j`. -/
def State.readJ (s : State) : Except Halt Nat :=
  match s.j with
  | some j => .ok j
  | none => .error (.fault .emptyRegisterRead)

/-- `slot[i]`. -/
def State.readSlot (s : State) (i : Fin 4) : Except Halt Slot :=
  match s.slot[i] with
  | some v => .ok v
  | none => .error (.fault .emptyRegisterRead)

/-- The whole frame buffer, the one way it is read (R42). -/
def State.readFrame (s : State) : Except Halt Frame :=
  match s.frame with
  | some f => .ok f
  | none => .error (.fault .emptyRegisterRead)

/-- `slot[i] <- v` (R12). -/
def State.writeSlot (s : State) (i : Fin 4) (v : Slot) : State :=
  { s with slot := s.slot.set i (some v) }

/-- `frame[x] <- v`, one byte (R12, R46). The buffer holds a value from the start of an encoder
operation on (R25). -/
def State.writeFrame (s : State) (x : Fin 9) (v : Byte) : Except Halt State := do
  let f ← s.readFrame
  return { s with frame := some (f.set x v) }

/-- `frame[x] <- frame[x] | v`: the read-modify-write of one byte (R46). -/
def State.orFrame (s : State) (x : Fin 9) (v : Byte) : Except Halt State := do
  let f ← s.readFrame
  s.writeFrame x (f[x] ||| v)

/-- The start of an encoder operation: every byte of the frame is `0x00` (R25, R122). -/
def State.zeroFrame (s : State) : State := { s with frame := some (Vector.replicate 9 0x00#8) }

/-- The start of a scan: `k <- 0`, `j <- 0`, no slot holds a value (R141). -/
def State.startScan (s : State) : State := { s with k := some 0, j := some 0, slot := emptySlots }

/-- `j <- j + 1` (R142). -/
def State.advanceScan (s : State) (j : Nat) : State := { s with j := some (j + 1) }

/-- Consuming slot `k`, where `k < 4`: `slot[k] <- (m, 0)`, `k <- k + 1` (R145). -/
def State.consumeSlot (s : State) (k : Fin 4) (m : Mask) : State :=
  { s.writeSlot k (consumedSlot m) with k := some k.succ }

/-- A period attached to slot `i`: `slot[i].dot <- 1` (R144). -/
def State.attachPoint (s : State) (i : Fin 4) : Except Halt State := do
  let v ← s.readSlot i
  return s.writeSlot i (withPoint v)

/-! ### The end of an operation -/

/-- The working registers exist only inside one operation (R22, R32): at its end they hold no value. -/
def State.releaseWork (s : State) : State :=
  { s with k := none, slot := emptySlots, frame := none, j := none }

/-- An operation ends with its response: the response is on the response port, the request is no
longer in progress, and no working register holds a value (R32, R60, R66). -/
def respond (r : Response) (s : State) : Host.Outcome State Fault Refusal :=
  .next { s.releaseWork with request := none, response := some r }

/-- RAISING AN ERROR, the one way every error is taken (R203, R209): the operation ends at once with
the error's status and information and no result; nothing is saved, no mode changes, control goes
nowhere and nothing persists, so `s` is the state the operation began in. There is no return from an
error (R210): after the response the next request is handled as the first one would be. -/
def raise (e : SmfeError) (s : State) : Host.Outcome State Fault Refusal :=
  respond (.error e) s

/-- An operation that began in `s` ends: with its result and the state its work left, or by raising
its error, or in the machine's fault. -/
def conclude (s : State) (r : Except Halt (Result × State)) : Host.Outcome State Fault Refusal :=
  match r with
  | .ok (res, s') => respond (.ok res) s'
  | .error (.error e) => raise e s
  | .error (.fault f) => .fault f

/-! ### The response port: status, result and info (R66, R67) -/

/-- The 4-bit status code (R67). -/
def Response.status : Response → BitVec 4
  | .ok _ => 0x0#4
  | .error (.unsupportedCharacter _ _) => 0x1#4
  | .error (.textTooLong _) => 0x2#4
  | .error (.tooManySlots _) => 0x3#4
  | .error (.illegalOperation _) => 0xF#4

/-- `result`, present only when the status is OK (R66). -/
def Response.result : Response → Option Result
  | .ok r => some r
  | .error _ => none

/-- `info`, present only when the status is not OK (R66); each error carries its own (R201 to R205). -/
def Response.info : Response → Option SmfeError
  | .ok _ => none
  | .error e => some e

/-- A slot list in the format of R64, as TEXT_TO_SLOTS delivers it (R66). -/
def Result.slotWords : Result → Option (List SlotWord)
  | .slots l => some (l.map Slot.toWord)
  | .mask _ => none
  | .frame _ => none

/-- A frame as the transport gets it: its 9 bytes by index and nothing before or after them (R44, R69). -/
def Frame.payload (f : Frame) : List Byte := f.toList

/-! ### The ports and the caller (R60, R244) -/

/-- The caller puts a request on the request port. -/
def State.present (s : State) (r : RawRequest) : State := { s with request := some r }

/-- The caller takes the response waiting on the response port, which then holds nothing (R29). -/
def State.deliver (s : State) : State :=
  { s with response := none, received := s.received ++ s.response.toList }

/-- With no request in progress the caller moves: its next action happens, or, its script at an end,
nothing does (SMFE acts only on a request, R27, R207). -/
def callerMove (s : State) : State :=
  match s.script with
  | [] => s
  | .present r :: rest => { s with script := rest }.present r
  | .takeResponse :: rest => { s with script := rest }.deliver

/-- The instruction of the request on the port: none where no request is in progress. A request
presented before the previous response is delivered is refused (R244), and so are a record that is no
request of format REQ (R61) and a request outside the bounds of the realisation (R10, D2, D12). -/
def fetch (s : State) : Option (Except Refusal Instr) :=
  match s.request with
  | none => none
  | some r =>
    match s.response with
    | some _ => some (.error .requestWhileBusy)
    | none =>
      match decode r with
      | .error why => some (.error (.malformedRequest why))
      | .ok i =>
        match i.outside s.params with
        | some why => some (.error (.outsideParameters why))
        | none => some (.ok i)

/-- The state with an opcode-table word's request on the request port and the previous response
delivered, so that the very next step runs it. -/
def placeTableRequest (s : State) (w : Nat) : State :=
  { s with request := some (tableRequest w), response := none }

end Sys2Proof.Machine
end

