-- ==== Sys2Proof/Machine/FrameEncoder.lean ====
section
/-! DEFINITION. The frame encoder: ENCODE_SLOTS and CLEAR_FRAME (41_frame_encoder.md). -/

namespace Sys2Proof.Machine

/-- `m[7:0]` (R43, R123). -/
def lowByte (m : Mask) : Byte := m.extractLsb' 0 8

/-- `m[15:8]` (R43, R123). -/
def highByte (m : Mask) : Byte := m.extractLsb' 8 8

/-- The frame index `2i + d` of slot `i`, for `d` 1 or 2 (R43, R124). -/
def slotByte (i : Fin 4) (d : DpByteOffset) : Fin 9 :=
  ⟨2 * i.val + offsetOf d, by cases d <;> simp only [offsetOf] <;> omega⟩

/-- Packing slot `i`: the mask's two bytes at `2i+1` and `2i+2` (R123), then, where `dot` is set, the
point ORed into the byte at `2i + DP_BYTE_OFFSET` already written (R124). -/
def packSlot (p : Params) (i : Fin 4) (v : Slot) (s : State) : Except Halt State := do
  let s ← s.writeFrame (slotByte i .one) (lowByte v.mask)
  let s ← s.writeFrame (slotByte i .two) (highByte v.mask)
  if v.dot then s.orFrame (slotByte i p.dpByteOffset) (pointBit p) else return s

/-- Packing the listed slots in order (R120, R123). -/
def packSlots (p : Params) : List (Fin 4 × Slot) → State → Except Halt State
  | [], s => .ok s
  | (i, v) :: rest, s => do
    let s ← packSlot p i v s
    packSlots p rest s

/-- The encoder (R120): more than 4 slots fail before any byte is written (R121); else the frame starts
all zero (R122) and the slots, at most 4, are packed by index. -/
def encodeFrame (p : Params) (slots : List Slot) (s : State) : Except Halt State :=
  if slots.length > 4 then .error (.error (.tooManySlots slots.length))
  else packSlots p ([0, 1, 2, 3].zip slots) s.zeroFrame

/-- The finished frame buffer is the operation's result (R25). -/
def frameResult (s : State) : Except Halt (Result × State) := do
  let f ← s.readFrame
  return (.frame f, s)

/-- ENCODE_SLOTS (R120), with the parameters of the realisation (R10, R124). -/
def execEncodeSlots (slots : List Slot) (s : State) : Host.Outcome State Fault Refusal :=
  conclude s (do let s' ← encodeFrame s.params slots s; frameResult s')

/-- CLEAR_FRAME (R127): the all-zero frame. -/
def execClearFrame (s : State) : Host.Outcome State Fault Refusal :=
  conclude s (frameResult s.zeroFrame)

end Sys2Proof.Machine
end

