-- ==== Sys2Proof/Machine/Reserved.lean ====
section
/-! DEFINITION. The reserved op codes: each answers with `IllegalOperation` and the op value, no result,
and changes nothing (R71, R205). -/

namespace Sys2Proof.Machine

/-- `op = 101` (R71, R205). -/
def execReserved101 (s : State) : Host.Outcome State Fault Refusal :=
  raise (.illegalOperation 0b101#3) s

/-- `op = 110` (R71, R205). -/
def execReserved110 (s : State) : Host.Outcome State Fault Refusal :=
  raise (.illegalOperation 0b110#3) s

/-- `op = 111` (R71, R205). -/
def execReserved111 (s : State) : Host.Outcome State Fault Refusal :=
  raise (.illegalOperation 0b111#3) s

end Sys2Proof.Machine
end

