-- ==== Sys2Proof/Machine/SegmentMap.lean ====
section
/-! DEFINITION. LOOKUP (40_segment_map.md). -/

namespace Sys2Proof.Machine

/-- LOOKUP (R100): the character's mask, or `UnsupportedCharacterError(ch, 0)` where it has no entry.
No working register is used and no state is written but the ports. -/
def execLookup (ch : Ch) (s : State) : Host.Outcome State Fault Refusal :=
  match s.tableRead ch with
  | some m => respond (.ok (.mask m)) s
  | none => raise (.unsupportedCharacter ch 0) s

end Sys2Proof.Machine
end

