-- ==== Sys2Proof/Machine/TextToSlots.lean ====
section
/-! DEFINITION. The text-to-slots scan, TEXT_TO_SLOTS and ENCODE_TEXT (42_text_to_slots.md). -/

namespace Sys2Proof.Machine

/-- One step of the scan, at the character `c = text[j]`. A period is dropped while no slot is consumed
(R143) and else attaches to slot `k-1` (R144). Every other character consumes a slot (R142): with
four consumed it raises TextTooLong (R146), before the table is read; with no entry it raises
UnsupportedCharacter (R147); else it fills slot `k` (R145). Then `j` advances by 1 (R142). -/
def scanChar (c : Ch) (s : State) : Except Halt State := do
  let k ← s.readK
  let j ← s.readJ
  if isPeriod c then
    if _h : k.val = 0 then return s.advanceScan j
    else
      let s' ← s.attachPoint ⟨k.val - 1, by omega⟩
      return s'.advanceScan j
  else if h : k.val < 4 then
    match s.tableRead c with
    | some m => return (s.consumeSlot ⟨k.val, h⟩ m).advanceScan j
    | none => .error (.error (.unsupportedCharacter c j))
  else .error (.error (.textTooLong j))

/-- The scan, left to right over the characters not yet examined; the first error ends it (R142, R148).
It ends at the text's end (R149, R246). -/
def scan : Text → State → Except Halt State
  | [], s => .ok s
  | c :: rest, s => do
    let s ← scanChar c s
    scan rest s

/-- The values of the listed entries of the slot buffer, in order. -/
def readSlots : List (Fin 4) → State → Except Halt (List Slot)
  | [], _ => .ok []
  | i :: rest, s => do
    let v ← s.readSlot i
    let l ← readSlots rest s
    return v :: l

/-- The scan's result `[slot[0], ..., slot[k-1]]` (R149). -/
def scannedSlots (s : State) : Except Halt (List Slot) := do
  let k ← s.readK
  readSlots (List.take k.val [0, 1, 2, 3]) s

/-- A scan from its start (R141), with its result (R140, R149). -/
def scanText (text : Text) (s : State) : Except Halt (List Slot × State) := do
  let s' ← scan text s.startScan
  let l ← scannedSlots s'
  return (l, s')

/-- TEXT_TO_SLOTS (R140). -/
def execTextToSlots (text : Text) (s : State) : Host.Outcome State Fault Refusal :=
  conclude s (do
    let (l, s') ← scanText text s
    return (.slots l, s'))

/-- ENCODE_TEXT (R151): the scan, any error of which ends the operation unchanged, then the encoder on
its slots, with the parameters of the realisation (R10, R124). -/
def execEncodeText (text : Text) (s : State) : Host.Outcome State Fault Refusal :=
  conclude s (do
    let (l, s') ← scanText text s
    let s'' ← encodeFrame s.params l s'
    frameResult s'')

end Sys2Proof.Machine
end

