-- ==== Sys2Proof/Machine/Dispatch.lean ====
section
/-! DEFINITION. One arm for each constructor of Instr: a direct call of its meaning. -/

namespace Sys2Proof.Machine

def exec (i : Instr) (s : State) : Host.Outcome State Fault Refusal :=
  match i with
  | .lookup ch => Sys2Proof.Machine.execLookup ch s
  | .encodeSlots slots => Sys2Proof.Machine.execEncodeSlots slots s
  | .clearFrame => Sys2Proof.Machine.execClearFrame s
  | .textToSlots text => Sys2Proof.Machine.execTextToSlots text s
  | .encodeText text => Sys2Proof.Machine.execEncodeText text s
  | .reserved101 => Sys2Proof.Machine.execReserved101 s
  | .reserved110 => Sys2Proof.Machine.execReserved110 s
  | .reserved111 => Sys2Proof.Machine.execReserved111 s

end Sys2Proof.Machine
end

