-- ==== Sys2Proof/Machine/Step.lean ====
section
/-! DEFINITION. One step. SMFE has no program counter and fetches no instructions (R27): what it runs is
the request standing on its request port, each operation one atomic step (R245). -/

namespace Sys2Proof.Machine

/-- One step: the request in progress is run, or refused by name; with none in progress the caller
moves. -/
def step (s : State) : Host.Outcome State Fault Refusal :=
  match fetch s with
  | none => .next (callerMove s)
  | some (.error r) => .refused r
  | some (.ok i) => exec i s

/-- The state whose next step runs exactly an opcode-table word (the name is the host's): its request
stands on the request port and no response is pending. -/
def State.withFetchWord (s : State) (_nbits w : Nat) : State := placeTableRequest s w

end Sys2Proof.Machine
end

