-- ==== Sys2Proof/ClosedForm.lean ====
section
/-! DEFINITION. The spec's own closed forms, in which claims say what an operation answers: of a frame
(R130), of a scan (R152), and from them of the response to a request. They run no step of the machine. -/

namespace Sys2Proof.ClosedForm

open Sys2Proof.Machine

/-- What the point of a slot adds to the byte of that slot at offset `d`: the decorator bit where `dot`
is set and `d` is `DP_BYTE_OFFSET`, nothing elsewhere (R124, R130). -/
def pointIn (p : Params) (dot : Bool) (d : DpByteOffset) : Byte :=
  if dot = true ∧ p.dpByteOffset = d then pointBit p else 0x00#8

/-- The byte of a mask that stands at offset `d` of its slot (R43, R123). -/
def maskByte (d : DpByteOffset) (m : Mask) : Byte :=
  match d with
  | .one => lowByte m
  | .two => highByte m

/-- Byte `x` of the frame of a slot list (R130). -/
def frameByte (p : Params) (l : List Slot) (x : Fin 9) : Byte :=
  if x.val = 0 then 0x00#8
  else
    match l[(x.val - 1) / 2]? with
    | none => 0x00#8
    | some v =>
      if x.val % 2 = 1 then maskByte .one v.mask ||| pointIn p v.dot .one
      else maskByte .two v.mask ||| pointIn p v.dot .two

/-- The frame of a slot list (R130). -/
def frame (p : Params) (l : List Slot) : Frame :=
  #v[frameByte p l 0, frameByte p l 1, frameByte p l 2, frameByte p l 3, frameByte p l 4,
     frameByte p l 5, frameByte p l 6, frameByte p l 7, frameByte p l 8]

/-- A slot-consuming character of a text (R142): its index, its code, and whether a period stands
between it and the next one, which is whether a period follows it at once (R152). -/
structure Consumer where
  index : Nat
  ch    : Ch
  dot   : Bool
  deriving DecidableEq, Repr

/-- The slot-consuming characters `C[0..q-1]` of a text whose first character has index `j`, in order
(R152). Leading periods drop out with all the others. -/
def consumers (j : Nat) : Text → List Consumer
  | [] => []
  | c :: rest =>
    if isPeriod c then consumers (j + 1) rest
    else { index := j, ch := c, dot := rest.head?.any isPeriod } :: consumers (j + 1) rest

/-- A text with every run of periods made one period (R150). -/
def collapse : Text → Text
  | [] => []
  | c :: rest =>
    if isPeriod c && rest.head?.any isPeriod then collapse rest else c :: collapse rest

/-- The result of a scan over a table (R152): the error of the first `C[i]`, `i < 4`, outside the domain,
else of `C[4]`, else one slot for each consumer. -/
def scan (tab : Ch → Option Mask) (text : Text) : Except SmfeError (List Slot) :=
  match ((consumers 0 text).take 4).find? fun c => (tab c.ch).isNone with
  | some c => .error (.unsupportedCharacter c.ch c.index)
  | none =>
    match (consumers 0 text)[4]? with
    | some c => .error (.textTooLong c.index)
    | none =>
      .ok ((consumers 0 text).filterMap fun c => (tab c.ch).map fun m => { mask := m, dot := c.dot })

/-- The response to a request over the table and the parameters of a state (R10, R100, R120, R127, R140,
R151, R71). -/
def response (s : State) : Instr → Response
  | .lookup c =>
    match s.tableRead c with
    | some m => .ok (.mask m)
    | none => .error (.unsupportedCharacter c 0)
  | .encodeSlots l =>
    if l.length ≤ 4 then .ok (.frame (frame s.params l)) else .error (.tooManySlots l.length)
  | .clearFrame => .ok (.frame (frame s.params []))
  | .textToSlots t =>
    match scan s.tableRead t with
    | .ok l => .ok (.slots l)
    | .error e => .error e
  | .encodeText t =>
    match scan s.tableRead t with
    | .ok l => .ok (.frame (frame s.params l))
    | .error e => .error e
  | .reserved101 => .error (.illegalOperation 0b101#3)
  | .reserved110 => .error (.illegalOperation 0b110#3)
  | .reserved111 => .error (.illegalOperation 0b111#3)

end Sys2Proof.ClosedForm
end

