-- ==== Sys2Proof/Machine/Operands.lean ====
section
/-! DEFINITION. The operand forms of a request line (R74, R75): what each spells, and the request a line
assembles to. The sentinels of the state are reached here and nowhere else: a caller uses them by
placing them in a slot list (R107). -/

namespace Sys2Proof.Machine

/-- A slot operand of ENCODE (R74): a mask or one of the sentinels, each with or without a point. -/
inductive SlotOperand where
  /-- `0xMMMM` or `0xMMMM.`. -/
  | imm (mask : Mask) (dot : Bool)
  /-- `%blank` or `%blank.`. -/
  | blank (dot : Bool)
  /-- `%allon` or `%allon.`. -/
  | allOn (dot : Bool)
  deriving DecidableEq, Repr

/-- A request line (R74), the pseudo-instruction BLANK among them (R75). A character operand and a text
stand for their character words however they are spelled. -/
inductive AsmLine where
  | lookup (ch : Ch)
  | encode (slots : List SlotOperand)
  | clear
  | text (t : Text)
  | encText (t : Text)
  | blank
  deriving DecidableEq, Repr

/-- The slot a slot operand stands for: `%blank` is `MASK_BLANK`, `%allon` is `MASK_ALL_ON` (R74, R106,
R107). -/
def SlotOperand.resolve (s : State) : SlotOperand → Slot
  | .imm m d => { mask := m, dot := d }
  | .blank d => { mask := s.maskBlank, dot := d }
  | .allOn d => { mask := s.maskAllOn, dot := d }

/-- The instruction a request line assembles to (R74); BLANK is ENCODE with an empty list (R75). -/
def AsmLine.assemble (s : State) : AsmLine → Instr
  | .lookup c => .lookup c
  | .encode l => .encodeSlots (l.map (SlotOperand.resolve s))
  | .clear => .clearFrame
  | .text t => .textToSlots t
  | .encText t => .encodeText t
  | .blank => .encodeSlots []

/-- The caller's script for a program of request lines: each request is presented and its response
taken before the next is (R60, R244). -/
def callerScript (s : State) : List AsmLine → List CallerAction
  | [] => []
  | l :: rest => .present (encode (l.assemble s)) :: .takeResponse :: callerScript s rest

end Sys2Proof.Machine
end

