-- ==== Sys2Proof/Machine/Assembler.lean ====
section
/-! DEFINITION. Reading request lines in the spec's own assembly (R74, R75, decision D17) from the codes
of their characters: one request a line, `;` starts a comment. -/

namespace Sys2Proof.Machine

/-- The codes of a source text. -/
abbrev Source := List Nat

/-- A space or a tab. -/
def isBlankCode (c : Nat) : Bool := c == 0x20 || c == 0x09

/-- The text without the blanks at its start. -/
def skipBlanks (l : Source) : Source := l.dropWhile isBlankCode

/-- The text without the blanks at either end. -/
def trimBlanks (l : Source) : Source := (skipBlanks (skipBlanks l).reverse).reverse

/-- The value of a hexadecimal digit. -/
def hexDigit (c : Nat) : Option Nat :=
  if 0x30 ≤ c ∧ c ≤ 0x39 then some (c - 0x30)
  else if 0x41 ≤ c ∧ c ≤ 0x46 then some (c - 0x41 + 10)
  else if 0x61 ≤ c ∧ c ≤ 0x66 then some (c - 0x61 + 10)
  else none

/-- The longest run of hexadecimal digits at the start: its value after `v`, how many digits after `n`,
and the rest. -/
def hexRun (v n : Nat) : Source → Nat × Nat × Source
  | [] => (v, n, [])
  | c :: rest =>
    match hexDigit c with
    | some d => hexRun (16 * v + d) (n + 1) rest
    | none => (v, n, c :: rest)

/-- What may follow an operand: blanks, then the line's end or a comment. -/
def endsLine (l : Source) : Bool :=
  match skipBlanks l with
  | [] => true
  | c :: _ => c == 0x3B

/-- A character word of a code that fits 32 bits. -/
def charWord (v : Nat) : Option Ch := if v < 2 ^ 32 then some (BitVec.ofNat 32 v) else none

/-- A character operand with what follows it: `'c'` for a printable character, or `U+` and digits. -/
def readChar : Source → Option (Ch × Source)
  | 0x27 :: c :: 0x27 :: rest =>
    if 0x20 ≤ c ∧ c ≤ 0x7E then some (BitVec.ofNat 32 c, rest) else none
  | 0x55 :: 0x2B :: rest =>
    match hexRun 0 0 rest with
    | (_, 0, _) => none
    | (v, _, rest) => (charWord v).map fun c => (c, rest)
  | _ => none

/-- Where the reader of a string stands: at a plain character, after a backslash, after `\u`, or inside
the braces of a `\u` escape with a value and a number of digits. -/
inductive StringMode where
  | plain
  | escape
  | brace
  | code (value digits : Nat)
  deriving DecidableEq, Repr

/-- The characters of a string up to its closing quote, with what follows it. The escapes are a
backslash before a quote or a backslash, and `\u` with a code in braces (R74). -/
def readString (m : StringMode) (acc : Text) : Source → Option (Text × Source)
  | [] => none
  | c :: rest =>
    match m with
    | .plain =>
      if c = 0x22 then some (acc.reverse, rest)
      else if c = 0x5C then readString .escape acc rest
      else (charWord c).bind fun w => readString .plain (w :: acc) rest
    | .escape =>
      if c = 0x22 ∨ c = 0x5C then readString .plain (BitVec.ofNat 32 c :: acc) rest
      else if c = 0x75 then readString .brace acc rest
      else none
    | .brace => if c = 0x7B then readString (.code 0 0) acc rest else none
    | .code v n =>
      if c = 0x7D then
        if n = 0 then none else (charWord v).bind fun w => readString .plain (w :: acc) rest
      else
        match hexDigit c with
        | some d => readString (.code (16 * v + d) (n + 1)) acc rest
        | none => none

/-- The trailing point of a slot operand: nothing, or one `.`. -/
def readDot : Source → Option Bool
  | [] => some false
  | [0x2E] => some true
  | _ => none

/-- The codes of a word of the assembly. -/
def codes (word : String) : Source := word.toList.map Char.toNat

/-- The text after a given start, if it starts so. -/
def afterStart : Source → Source → Option Source
  | [], l => some l
  | _ :: _, [] => none
  | a :: start, c :: l => if a = c then afterStart start l else none

/-- A slot operand, the blanks around it taken away: `0x` and digits, a bare `0` as the spec's program P2
writes it, `%blank` or `%allon`, each with an optional trailing point. -/
def readSlotOperand (l : Source) : Option SlotOperand :=
  match afterStart (codes "0x") l with
  | some digits =>
    match hexRun 0 0 digits with
    | (_, 0, _) => none
    | (v, _, rest) =>
      if v < 2 ^ 16 then (readDot rest).map fun d => .imm (BitVec.ofNat 16 v) d else none
  | none =>
    match afterStart (codes "%blank") l with
    | some rest => (readDot rest).map .blank
    | none =>
      match afterStart (codes "%allon") l with
      | some rest => (readDot rest).map .allOn
      | none =>
        match afterStart (codes "0") l with
        | some rest => (readDot rest).map fun d => .imm 0x0000#16 d
        | none => none

/-- The pieces of a text between given separators. -/
def splitAtCode (sep : Nat) : Source → List Source
  | [] => [[]]
  | c :: rest =>
    match splitAtCode sep rest with
    | [] => [[c]]
    | piece :: more => if c = sep then [] :: piece :: more else (c :: piece) :: more

/-- The slot operands of ENCODE, separated by commas, zero or more, up to a comment. -/
def readSlotOperands (l : Source) : Option (List SlotOperand) :=
  match trimBlanks (l.takeWhile (· != 0x3B)) with
  | [] => some []
  | c :: rest => (splitAtCode 0x2C (c :: rest)).mapM fun piece => readSlotOperand (trimBlanks piece)

/-- A text operand, with nothing but a comment after it. -/
def readText (l : Source) : Option Text :=
  match skipBlanks l with
  | 0x22 :: body =>
    match readString .plain [] body with
    | some (t, rest) => if endsLine rest then some t else none
    | none => none
  | _ => none

/-- The operand of LOOKUP, with nothing but a comment after it. -/
def readLookup (l : Source) : Option AsmLine :=
  match readChar (skipBlanks l) with
  | some (c, rest) => if endsLine rest then some (.lookup c) else none
  | none => none

/-- A line that is a mnemonic alone. -/
def readBare (line : AsmLine) (l : Source) : Option AsmLine := if endsLine l then some line else none

/-- A request: a mnemonic and its operand (R74, R75). No mnemonic starts another, so at most one applies.
DESIGN CHOICE (notes/assumptions/10.md): R74 writes every form with blanks between the mnemonic and its
operand and does not say that one must stand there; here none need, before any form of operand, so that
`LOOKUP'A'`, `LOOKUPU+0141`, `TEXT"0.A"`, `ENCODE0x0C3F` and `ENCODE%blank` are read as the forms with
blanks are. -/
def readRequest (l : Source) : Option AsmLine :=
  ((afterStart (codes "LOOKUP") l).bind readLookup).or <|
  ((afterStart (codes "ENCODE") l).bind fun l => (readSlotOperands l).map .encode).or <|
  ((afterStart (codes "CLEAR") l).bind (readBare .clear)).or <|
  ((afterStart (codes "TEXT") l).bind fun l => (readText l).map .text).or <|
  ((afterStart (codes "ENCTEXT") l).bind fun l => (readText l).map .encText).or <|
  (afterStart (codes "BLANK") l).bind (readBare .blank)

/-- One line: a request, nothing (a blank line or a comment), or no line of the assembly (R74, R75). No
blank need stand between a mnemonic and its operand, whatever the operand's form: the model's choice
(`readRequest`, notes/assumptions/10.md). -/
def readLine (l : Source) : Option (Option AsmLine) :=
  let l := skipBlanks l
  if endsLine l then some none else (readRequest l).map some

/-- A program: its request lines in order, or none where a line is not of the assembly.
DESIGN CHOICE (notes/assumptions/10.md): R74 says "one per line" and not which character ends a line; here
code `0x0A` does and no other. A carriage return (`0x0D`) neither ends a line nor is a blank, so a line
that has one is no line of the assembly, except where it stands in a comment or within a string. -/
def readProgram (l : Source) : Option (List AsmLine) :=
  ((splitAtCode 0x0A l).mapM readLine).map fun lines => lines.filterMap id

end Sys2Proof.Machine
end

