-- ==== Sys2Proof/Safety.lean ====
section
/-! DEFINITION. The terms claims use: the state an operation leaves, the rest between operations, and
the invariant of the machine. -/

namespace Sys2Proof.Machine

/-- The state an operation that began in `s` leaves with response `r`: the response pends, the request is
done, the working registers hold nothing, and every other part of `s` is as it was. -/
def answered (r : Response) (s : State) : State :=
  { s with
    k := none, slot := #v[none, none, none, none], frame := none, j := none
    request := none, response := some r }

/-- The constants hold their values (R20, R32). -/
def Constants (s : State) : Prop :=
  s.segMap = Config.segMap ∧ s.maskBlank = Config.maskBlank ∧ s.maskAllOn = Config.maskAllOn

/-- No operation is under way: no working register holds a value (R22, R32). -/
def Resting (s : State) : Prop :=
  s.k = none ∧ s.slot = #v[none, none, none, none] ∧ s.frame = none ∧ s.j = none

/-- What a response of SMFE can hold, over its own table: a mask is an entry of the table, a frame has
byte 0 zero (R122), a slot list has at most 4 slots (R149) whose masks are entries of the table, and
each error's information meets the cause of that error (R201, R202, R204, R205). -/
def lawful : Response → Prop
  | .ok (.mask m) => m ∈ Config.segMap.toList
  | .ok (.frame f) => f[0] = 0x00#8
  | .ok (.slots l) => l.length ≤ 4 ∧ ∀ v ∈ l, v.mask ∈ Config.segMap.toList
  | .error (.unsupportedCharacter c _) => ¬(0x20 ≤ c.toNat ∧ c.toNat ≤ 0x7E)
  | .error (.textTooLong j) => 4 ≤ j
  | .error (.tooManySlots n) => 4 < n
  | .error (.illegalOperation op) => 5 ≤ op.toNat

/-- The invariant: the constants are never written (R20), no working register holds a value between
operations (R32), and every response pending or delivered is one SMFE can give. -/
structure Inv (s : State) : Prop where
  constants : Constants s
  resting : Resting s
  pending : ∀ r ∈ s.response, lawful r
  delivered : ∀ r ∈ s.received, lawful r

/-- A step that does not end in the machine's fault. -/
def FaultFree (o : Host.Outcome State Fault Refusal) : Prop := ∀ f, o ≠ .fault f

end Sys2Proof.Machine
end

