-- ==== Sys2Proof/Certificates/Slice0/Obligations.lean ====
section
/-! DEFINITION. The statements for the provers. Each docstring names the rule of the spec it formalises,
or says that it is derived and from what. -/

open Sys2Proof Sys2Proof.Machine

/-! ### Reset -/

/-- R103: three entries of the table are fixed; the table of the reset state holds them. -/
def Obligations.ResetTableHoldsFixedEntries : Prop :=
  State.reset.tableRead 0x20#32 = some 0x0000#16 ∧
  State.reset.tableRead 0x30#32 = some 0x0C3F#16 ∧
  State.reset.tableRead 0x41#32 = some 0x00F7#16

/-- Reset (R240, R32, the spec's own decision D14): after reset the table and the sentinels hold
their constant values, no working register holds a value, no request is in progress and no response
is pending; the parameters are the values R10 gives, as the model chooses to start with
(notes/assumptions/2.md). -/
def Obligations.ResetHoldsConstantsAndNothingElse : Prop :=
  Constants State.reset ∧ Resting State.reset ∧
  State.reset.request = none ∧ State.reset.response = none ∧
  State.reset.params = { dpByteOffset := .one, dpBit := 6, charWidth := 32, textMax := none }

/-- The blank sentinel (R106, the spec's own inference): it is `0x0000` and equals the entry of the
space. -/
def Obligations.BlankSentinelEqualsSpaceEntry : Prop :=
  State.reset.maskBlank = 0x0000#16 ∧ State.reset.tableRead 0x20#32 = some State.reset.maskBlank

/-! ### The table and LOOKUP -/

/-- R100: LOOKUP answers with the character's mask, or with UnsupportedCharacterError(ch, 0) exactly
when the character is outside `0x20..0x7E`; it changes nothing else. -/
def Obligations.LookupAnswersEntryOrUnsupported : Prop :=
  ∀ (s : State) (c : Ch),
    (∀ h : 0x20 ≤ c.toNat ∧ c.toNat ≤ 0x7E,
      exec (.lookup c) s =
        .next (answered (.ok (.mask (s.segMap[c.toNat - 0x20]'(by omega)))) s)) ∧
    (¬(0x20 ≤ c.toNat ∧ c.toNat ≤ 0x7E) →
      exec (.lookup c) s = .next (answered (.error (.unsupportedCharacter c 0)) s))

/-- R101 (the backtick by the spec's own decision D18), R105: the domain of the table is exactly the
95 codes `0x20` to `0x7E`, each once: the character of code `0x20 + i` has entry `i`, and no other
character has one. -/
def Obligations.TableDomainIsThePrintableCodes : Prop :=
  ∀ s : State,
    (∀ i : Fin 95, s.tableRead (BitVec.ofNat 32 (0x20 + i.val)) = some s.segMap[i]) ∧
    (∀ c : Ch, (∀ i : Fin 95, c ≠ BitVec.ofNat 32 (0x20 + i.val)) → s.tableRead c = none)

/-- No aliasing (R63, the spec's own decision D2): no code is truncated: a character whose low 8
bits are those of a supported character but which is none of them has no entry. -/
def Obligations.WideCodesNeverAliasTableEntries : Prop :=
  ∀ (s : State) (c d : Ch), (s.tableRead d).isSome = true → c ≠ d →
    c.setWidth 8 = d.setWidth 8 → s.tableRead c = none

/-- R20: no operation and no other step writes the table or the sentinels, and no other register of
SMFE holds a value after an operation. -/
def Obligations.TableAndSentinelsAreNeverWritten : Prop :=
  (∀ (i : Instr) (s t : State), exec i s = .next t →
    t.segMap = s.segMap ∧ t.maskBlank = s.maskBlank ∧ t.maskAllOn = s.maskAllOn ∧
    t.k = none ∧ (∀ x : Fin 4, t.slot[x] = none) ∧ t.frame = none ∧ t.j = none) ∧
  (∀ s t : State, step s = .next t →
    t.segMap = s.segMap ∧ t.maskBlank = s.maskBlank ∧ t.maskAllOn = s.maskAllOn)

/-- The frame of every operation (from R20, R21, R32, R60): it ends the request, puts a response on the
response port and leaves no value in a working register; the table, the sentinels and the parameters
(in the state by notes/assumptions/2.md) are as before, and so are the caller's script and the
responses it has taken, the model's own fields (notes/assumptions/5.md). No step of any kind writes
the parameters. -/
def Obligations.OperationsChangeOnlyPortsAndWorkingRegisters : Prop :=
  (∀ (i : Instr) (s t : State), exec i s = .next t →
    t.request = none ∧ t.response.isSome = true ∧ Resting t ∧
    t.segMap = s.segMap ∧ t.maskBlank = s.maskBlank ∧ t.maskAllOn = s.maskAllOn ∧
    t.params = s.params ∧ t.script = s.script ∧ t.received = s.received) ∧
  (∀ s t : State, step s = .next t → t.params = s.params)

/-! ### The frame encoder -/

/-- The closed form of the frame, the spec's own inference R130 from R121 to R125: for at most 4
slots the encoder's result is the closed form, for every `DP_BYTE_OFFSET` and `DP_BIT`; it writes
the frame buffer and nothing else. -/
def Obligations.EncoderMatchesClosedForm : Prop :=
  ∀ (p : Params) (l : List Slot) (s : State), l.length ≤ 4 →
    encodeFrame p l s = .ok { s with frame := some (ClosedForm.frame p l) }

/-- R120: ENCODE_SLOTS answers with the packed frame, for whatever parameters the state holds (R10), or
with TooManySlotsError(n) exactly when n > 4. -/
def Obligations.EncodeSlotsAnswersFrameOrTooMany : Prop :=
  ∀ (l : List Slot) (s : State),
    (l.length ≤ 4 → exec (.encodeSlots l) s =
      .next (answered (.ok (.frame (ClosedForm.frame s.params l))) s)) ∧
    (4 < l.length → exec (.encodeSlots l) s =
      .next (answered (.error (.tooManySlots l.length)) s))

/-- R121: a list of more than 4 slots fails with TooManySlotsError before any frame byte is written
and with no result; a list of exactly 4 is accepted. -/
def Obligations.FiveSlotsFailBeforeAnyWrite : Prop :=
  ∀ (p : Params) (l : List Slot) (s : State),
    (4 < l.length → encodeFrame p l s = .error (.error (.tooManySlots l.length)) ∧
      exec (.encodeSlots l) s = .next (answered (.error (.tooManySlots l.length)) s)) ∧
    (l.length = 4 → ∃ f, exec (.encodeSlots l) s = .next (answered (.ok (.frame f)) s))

/-- R122: the frame starts all zero, and byte 0 is `0x00` in every frame SMFE produces. -/
def Obligations.FrameByteZeroIsAlwaysZero : Prop :=
  (∀ s : State, s.zeroFrame.frame = some (Vector.replicate 9 0x00#8)) ∧
  ∀ (i : Instr) (s t : State) (f : Frame), exec i s = .next t →
    t.response = some (.ok (.frame f)) → f[0] = 0x00#8

/-- R123, R43: the mask of slot `i` stands in the frame low byte first, at `2i+1` and `2i+2`, in
every list that holds it; the point, where the slot has one, is ORed afterwards into one of the two,
the one `DP_BYTE_OFFSET` names (R124). -/
def Obligations.MaskBytesStandLowThenHigh : Prop :=
  ∀ (l : List Slot) (s : State) (i : Nat) (hl : l.length ≤ 4) (hi : i < l.length),
    ∃ f : Frame,
      exec (.encodeSlots l) s = .next (answered (.ok (.frame f)) s) ∧
      f[2 * i + 1]'(by omega) =
        l[i].mask.extractLsb' 0 8 ||| ClosedForm.pointIn s.params l[i].dot .one ∧
      f[2 * i + 2]'(by omega) =
        l[i].mask.extractLsb' 8 8 ||| ClosedForm.pointIn s.params l[i].dot .two

/-- R124: setting the point of slot `i` changes the frame in one place, by ORing `1 << DP_BIT` into
the byte at `2i + DP_BYTE_OFFSET`, for every value of the two parameters; with the source's values
that is `0x40` into the byte at `2i+1`. No other bit of the frame changes. -/
def Obligations.PointOrsTheDecoratorBitIntoItsByte : Prop :=
  (∀ (p : Params) (l : List Slot) (s : State) (i : Nat) (hl : l.length ≤ 4) (hi : i < l.length),
    l[i].dot = false → ∃ f : Frame,
      encodeFrame p l s = .ok { s with frame := some f } ∧
      encodeFrame p (l.set i (withPoint l[i])) s = .ok { s with
        frame := some (f.set (slotByte ⟨i, by omega⟩ p.dpByteOffset)
          (f[slotByte ⟨i, by omega⟩ p.dpByteOffset] ||| (1#8 <<< p.dpBit.val))) }) ∧
  (∀ (l : List Slot) (s : State) (i : Nat) (hl : l.length ≤ 4) (hi : i < l.length),
    l[i].dot = false → ∃ f : Frame,
      exec (.encodeSlots l) s = .next (answered (.ok (.frame f)) s) ∧
      exec (.encodeSlots (l.set i (withPoint l[i]))) s =
        .next (answered (.ok (.frame (f.set (slotByte ⟨i, by omega⟩ s.params.dpByteOffset)
          (f[slotByte ⟨i, by omega⟩ s.params.dpByteOffset] ||| (1#8 <<< s.params.dpBit.val))))) s) ∧
      (s.params.dpByteOffset = .one → s.params.dpBit = 6 →
        exec (.encodeSlots (l.set i (withPoint l[i]))) s =
          .next (answered (.ok (.frame
            (f.set (2 * i + 1) (f[2 * i + 1]'(by omega) ||| 0x40#8) (by omega)))) s)))

/-- R125: with `n` slots listed, the bytes `2n+1` to 8 stay zero, and listing one more slot of mask
`0x0000` with no point leaves the frame as it was. -/
def Obligations.UnlistedSlotsStayZero : Prop :=
  ∀ (l : List Slot) (s : State), l.length ≤ 4 → ∃ f : Frame,
    exec (.encodeSlots l) s = .next (answered (.ok (.frame f)) s) ∧
    (∀ x : Fin 9, 2 * l.length < x.val → f[x] = 0x00#8) ∧
    (l.length < 4 → exec (.encodeSlots (l ++ [{ mask := 0x0000#16, dot := false }])) s =
      .next (answered (.ok (.frame f)) s))

/-- The absorbed point, the spec's own inference R129 from R124 and R103: where bit `DP_BIT` of the
byte a point lands in is 1 already the point changes nothing; with the source's values so it is for
every mask with bit 6 set, `SEG_MAP('A')` among them, and a point on `SEG_MAP('0')` turns `0x3F`
into `0x7F`. -/
def Obligations.PointIsAbsorbedByASetBit : Prop :=
  (∀ (p : Params) (l : List Slot) (s : State) (i : Nat) (hi : i < l.length),
    (ClosedForm.maskByte p.dpByteOffset l[i].mask).getLsbD p.dpBit.val = true →
    encodeFrame p (l.set i { mask := l[i].mask, dot := true }) s =
      encodeFrame p (l.set i { mask := l[i].mask, dot := false }) s) ∧
  (∀ (l : List Slot) (s : State) (i : Nat) (hi : i < l.length),
    (ClosedForm.maskByte s.params.dpByteOffset l[i].mask).getLsbD s.params.dpBit.val = true →
    exec (.encodeSlots (l.set i { mask := l[i].mask, dot := true })) s =
      exec (.encodeSlots (l.set i { mask := l[i].mask, dot := false })) s) ∧
  (∀ (l : List Slot) (s : State) (i : Nat) (hi : i < l.length),
    s.params.dpByteOffset = .one → s.params.dpBit = 6 → l[i].mask.getLsbD 6 = true →
    exec (.encodeSlots (l.set i { mask := l[i].mask, dot := true })) s =
      exec (.encodeSlots (l.set i { mask := l[i].mask, dot := false })) s) ∧
  (∀ s : State, s.params.dpByteOffset = .one → s.params.dpBit = 6 →
    exec (.encodeSlots [⟨0x00F7#16, true⟩]) s = exec (.encodeSlots [⟨0x00F7#16, false⟩]) s) ∧
  (∀ s : State, s.params.dpByteOffset = .one → s.params.dpBit = 6 →
    exec (.encodeSlots [⟨0x0C3F#16, true⟩]) s =
    .next (answered (.ok (.frame #v[0x00#8, 0x7F#8, 0x0C#8, 0#8, 0#8, 0#8, 0#8, 0#8, 0#8])) s))

/-- R127: CLEAR_FRAME answers with the 9-byte all-zero frame in every state. -/
def Obligations.ClearFrameAnswersZeros : Prop :=
  ∀ s : State, exec .clearFrame s =
    .next (answered (.ok (.frame #v[0#8, 0#8, 0#8, 0#8, 0#8, 0#8, 0#8, 0#8, 0#8])) s)

/-- R128: ENCODE_SLOTS of the empty list is CLEAR_FRAME. -/
def Obligations.EmptyEncodeEqualsClearFrame : Prop :=
  ∀ s : State, exec (.encodeSlots []) s = exec .clearFrame s

/-! ### The scan, one character at a time -/

/-- The dropped period (R143, in the reading of the spec's own decision D5): a period met with no
slot consumed is dropped: no slot changes and `k` does not advance; `j` advances by 1. -/
def Obligations.LeadingPeriodIsDropped : Prop :=
  ∀ (s : State) (j : Nat), s.k = some 0 → s.j = some j →
    scanChar 0x2E#32 s = .ok { s with j := some (j + 1) }

/-- R144: a period met with slots consumed sets the `dot` of the last of them, `slot[k-1]`, and
neither advances `k` nor consumes a slot; so it does with all four consumed (R146). -/
def Obligations.PeriodAttachesToTheLastSlot : Prop :=
  ∀ (s : State) (i : Fin 4) (j : Nat) (v : Slot), s.k = some i.succ → s.j = some j →
    s.slot[i] = some v →
    scanChar 0x2E#32 s =
      .ok { s with slot := s.slot.set i (some { mask := v.mask, dot := true }), j := some (j + 1) }

/-- R145: a slot-consuming character with an entry fills slot `k` with its mask and `dot` 0, and `k`
advances. -/
def Obligations.CharacterConsumesTheNextSlot : Prop :=
  ∀ (s : State) (i : Fin 4) (j : Nat) (c : Ch) (m : Mask), s.k = some i.castSucc → s.j = some j →
    c ≠ 0x2E#32 → s.tableRead c = some m →
    scanChar c s =
      .ok { s with
        slot := s.slot.set i (some { mask := m, dot := false })
        k := some i.succ
        j := some (j + 1) }

/-- The slot bound (R146, with the spec's own decision D7 that it is checked before the table): a
slot-consuming character met with four slots consumed raises TextTooLongError with its index,
whether the table has an entry for it or not; a period met there attaches to slot 3. -/
def Obligations.FifthConsumerRaisesTextTooLong : Prop :=
  ∀ (s : State) (j : Nat), s.k = some 4 → s.j = some j →
    (∀ c : Ch, c ≠ 0x2E#32 → scanChar c s = .error (.error (.textTooLong j))) ∧
    (∀ v : Slot, s.slot[3] = some v →
      scanChar 0x2E#32 s =
        .ok { s with slot := s.slot.set 3 (some { mask := v.mask, dot := true }), j := some (j + 1) })

/-- R147: a slot-consuming character met with fewer than four slots consumed and no entry raises
UnsupportedCharacterError with the character and its index. -/
def Obligations.UnsupportedConsumerRaises : Prop :=
  ∀ (s : State) (i : Fin 4) (j : Nat) (c : Ch), s.k = some i.castSucc → s.j = some j →
    c ≠ 0x2E#32 → s.tableRead c = none →
    scanChar c s = .error (.error (.unsupportedCharacter c j))

/-- R24: an entry of the slot buffer that holds no value is never read as one: the read faults. -/
def Obligations.EmptySlotReadFaults : Prop :=
  ∀ (s : State) (i : Fin 4), s.slot[i] = none → s.readSlot i = .error (.fault .emptyRegisterRead)

/-- R23, R26, R24: a scan from its start that meets no error leaves `j` at the length of the text,
`k` at the number of slot-consuming characters, which is at most 4, and a value in exactly the
entries of the slot buffer below `k`; it writes no other part of the state. -/
def Obligations.ScanRegistersCountTheText : Prop :=
  ∀ (text : Text) (s t : State), scan text s.startScan = .ok t →
    t.j = some text.length ∧
    (∃ k : Fin 5, t.k = some k ∧ k.val = (text.filter fun c => !isPeriod c).length ∧
      ∀ i : Fin 4, t.slot[i].isSome = true ↔ i.val < k.val) ∧
    { t with k := s.k, slot := s.slot, j := s.j } = s

/-! ### TEXT_TO_SLOTS and ENCODE_TEXT -/

/-- The closed form of the scan, the spec's own inference R152 from R141 to R149: TEXT_TO_SLOTS
answers, for every text and every table, what the closed form of the scan says: its slots, or the
first error. -/
def Obligations.TextToSlotsMatchesClosedForm : Prop :=
  ∀ (text : Text) (s : State),
    exec (.textToSlots text) s =
      .next (answered (match ClosedForm.scan s.tableRead text with
        | .ok l => .ok (.slots l)
        | .error e => .error e) s)

/-- R149: the slots TEXT_TO_SLOTS delivers are at most 4, one for each character of the text that is
no period, in their order; a text of periods only, or the empty text, gives the empty list. -/
def Obligations.SlotsAreTheConsumersInOrder : Prop :=
  (∀ (text : Text) (s t : State) (l : List Slot), exec (.textToSlots text) s = .next t →
    t.response = some (.ok (.slots l)) →
    l.length ≤ 4 ∧
    l.map (fun v => some v.mask) = (text.filter fun c => !isPeriod c).map s.tableRead) ∧
  (∀ (n : Nat) (s : State), exec (.textToSlots (List.replicate n 0x2E#32)) s =
    .next (answered (.ok (.slots [])) s))

/-- The first error (R148, the spec's own decision D7) ends the scan: a text whose scan fails fails
alike with anything after it. -/
def Obligations.FirstErrorEndsTheScan : Prop :=
  ∀ (text more : Text) (s : State) (e : SmfeError),
    exec (.textToSlots text) s = .next (answered (.error e) s) →
    exec (.textToSlots (text ++ more)) s = .next (answered (.error e) s) ∧
    exec (.encodeText (text ++ more)) s = .next (answered (.error e) s)

/-- Collapsing, the spec's own inference R150: making every run of periods of a text one period
changes neither the slots the text gives nor whether it gives any. -/
def Obligations.CollapsingPeriodRunsKeepsTheSlots : Prop :=
  ∀ (text : Text) (s : State) (l : List Slot),
    exec (.textToSlots (ClosedForm.collapse text)) s = .next (answered (.ok (.slots l)) s) ↔
    exec (.textToSlots text) s = .next (answered (.ok (.slots l)) s)

/-- Leading periods of whole texts (R143 and R150, D5): periods before a text are dropped: they
change neither its slots nor whether it gives any. -/
def Obligations.LeadingPeriodsNeverChangeTheSlots : Prop :=
  ∀ (n : Nat) (text : Text) (s : State) (l : List Slot),
    exec (.textToSlots (List.replicate n 0x2E#32 ++ text)) s = .next (answered (.ok (.slots l)) s) ↔
    exec (.textToSlots text) s = .next (answered (.ok (.slots l)) s)

/-- ENCODE_TEXT (R151, an operation of SMFE by the spec's own decision D20) is TEXT_TO_SLOTS and
then ENCODE_SLOTS: any error is passed on unchanged, and TooManySlotsError is never among them. -/
def Obligations.EncodeTextIsScanThenEncode : Prop :=
  ∀ (text : Text) (s t : State), exec (.textToSlots text) s = .next t →
    (∀ l, t.response = some (.ok (.slots l)) →
      exec (.encodeText text) s = exec (.encodeSlots l) s) ∧
    (∀ e, t.response = some (.error e) → exec (.encodeText text) s = .next t) ∧
    (∀ n, exec (.encodeText text) s ≠ .next (answered (.error (.tooManySlots n)) s))

/-- R151 with R130 and R152: ENCODE_TEXT answers, for every text and every table, the frame of the
closed form's slots or its error. -/
def Obligations.EncodeTextMatchesClosedForm : Prop :=
  ∀ (text : Text) (s : State),
    exec (.encodeText text) s =
      .next (answered (match ClosedForm.scan s.tableRead text with
        | .ok l => .ok (.frame (ClosedForm.frame s.params l))
        | .error e => .error e) s)

/-- The entry of the period, the spec's own inference R108: it affects LOOKUP alone: over two tables
that differ in that entry only, every other operation answers alike. That the reserved codes among
them answer at all is the model's choice (notes/assumptions/8.md). -/
def Obligations.PeriodEntryAffectsLookupAlone : Prop :=
  ∀ (i : Instr) (s : State) (m : Mask), (∀ c, i ≠ .lookup c) →
    ∃ r, exec i s = .next (answered r s) ∧
      exec i { s with segMap := s.segMap.set 14 m } =
        .next (answered r { s with segMap := s.segMap.set 14 m })

/-! ### Reserved op codes -/

/-- The reserved codes (R71, the spec's own decision D9; that they answer and are not refused is the
model's choice, notes/assumptions/8.md): each answers with ILLEGAL_OPERATION, no result, and changes
nothing. -/
def Obligations.ReservedCodesAnswerIllegalOperation : Prop :=
  ∀ s : State,
    exec .reserved101 s = .next (answered (.error (.illegalOperation 0b101#3)) s) ∧
    exec .reserved110 s = .next (answered (.error (.illegalOperation 0b110#3)) s) ∧
    exec .reserved111 s = .next (answered (.error (.illegalOperation 0b111#3)) s)

/-- IllegalOperation (R205 and R208, the spec's own decisions D9 and D7): a request on the port (the
place a step fetches from, notes/assumptions/5.md) is answered so exactly if its `op` is `101`, `110`
or `111`, with the op value, whatever operand comes with it, since the op code is checked before any
operand. That a reserved code answers at all, where R71, I8 and D9 allow a refusal as well, is the
model's choice (notes/assumptions/8.md). -/
def Obligations.IllegalOperationIsRaisedForReservedCodesOnly : Prop :=
  ∀ (s : State) (q : RawRequest), s.request = some q → s.response = none →
    (5 ≤ q.op.toNat ↔ ∃ op, step s = .next (answered (.error (.illegalOperation op)) s)) ∧
    (5 ≤ q.op.toNat → step s = .next (answered (.error (.illegalOperation q.op)) s))

/-! ### Every operation -/

/-- Termination, the spec's own inference R246: every operation terminates with a response: no
operation hangs, faults or is refused, in any state, with any operand. Of the reserved codes that is
the model's choice (notes/assumptions/8.md). -/
def Obligations.EveryOperationAnswers : Prop :=
  ∀ (i : Instr) (s : State), ∃ r, exec i s = .next (answered r s)

/-- The whole machine against the closed forms: what every operation answers, for every operand, state,
table and parameters (R100, R120, R127, R140, R151). The closed forms of frame and scan are the spec's
own inferences R130 and R152, and what the reserved codes of R71 answer is the model's choice
(notes/assumptions/8.md). -/
def Obligations.ExecMatchesClosedForms : Prop :=
  ∀ (i : Instr) (s : State), exec i s = .next (answered (ClosedForm.response s i) s)

/-- Independence (R48 and the spec's own inference R241): the response depends on the request and
the constants alone: two states with the same table and the same parameters, whatever else they hold
and whatever came before, get the same response. That a reserved code gets one is the model's choice
(notes/assumptions/8.md). -/
def Obligations.ResponseDependsOnRequestAndConstantsOnly : Prop :=
  ∀ (i : Instr) (s t : State), s.segMap = t.segMap → s.params = t.params →
    ∃ r, exec i s = .next (answered r s) ∧ exec i t = .next (answered r t)

/-- Each error has its operations, its cause and its information (R200 to R205; the information by the
spec's own decision D11): UnsupportedCharacterError names a character without an entry, LOOKUP's own
with index 0, or a slot-consuming one with fewer than four before it; TextTooLongError names the
fifth slot-consuming character; TooManySlotsError the length of a list of more than 4 slots;
IllegalOperation a reserved op code. -/
def Obligations.EachErrorHasItsOperationAndCause : Prop :=
  ∀ (i : Instr) (s t : State) (e : SmfeError), exec i s = .next t → t.response = some (.error e) →
    match e with
    | .unsupportedCharacter c j =>
      s.tableRead c = none ∧
        ((i = .lookup c ∧ j = 0) ∨
          ∃ text, (i = .textToSlots text ∨ i = .encodeText text) ∧
            text[j]? = some c ∧ isPeriod c = false ∧
            ((text.take j).filter fun c => !isPeriod c).length < 4)
    | .textTooLong j =>
      ∃ text, (i = .textToSlots text ∨ i = .encodeText text) ∧
        (∃ c, text[j]? = some c ∧ isPeriod c = false) ∧
        ((text.take j).filter fun c => !isPeriod c).length = 4
    | .tooManySlots n => ∃ l, i = .encodeSlots l ∧ n = l.length ∧ 4 < n
    | .illegalOperation op => i.op = op ∧ 5 ≤ op.toNat

/-- The status codes (R67, the spec's own decision D10), one for each kind; no other code is
produced. -/
def Obligations.StatusCodesAreTheTable : Prop :=
  ∀ r : Response,
    match r with
    | .ok _ => r.status = 0x0#4
    | .error (.unsupportedCharacter _ _) => r.status = 0x1#4
    | .error (.textTooLong _) => r.status = 0x2#4
    | .error (.tooManySlots _) => r.status = 0x3#4
    | .error (.illegalOperation _) => r.status = 0xF#4

/-- R203, R66: a response has a result exactly when its status is OK and info exactly when it is
not. -/
def Obligations.ErrorsCarryInfoAndNoResult : Prop :=
  ∀ r : Response,
    (r.result.isSome = true ↔ r.status = 0x0#4) ∧ (r.info.isSome = true ↔ r.status ≠ 0x0#4)

/-! ### Requests: decoding and encoding -/

/-- R61 to R65: decoding the request of an instruction gives the instruction back, with every
operand. -/
def Obligations.DecodeOfEncodeIsTheInstruction : Prop :=
  ∀ i : Instr, decode (encode i) = .ok i

/-- R61, R62: the other way: a request that decodes to an instruction with an operand format is that
instruction's own request; only a reserved code has more than one. -/
def Obligations.EncodeOfDecodeIsTheRequest : Prop :=
  ∀ (q : RawRequest) (i : Instr), decode q = .ok i → i.op.toNat ≤ 4 → encode i = q

/-- R64: the 17-bit word of a slot holds its mask in bits [15:0] and its point in bit 16, and every
such word is one slot's. -/
def Obligations.SlotWordHoldsMaskAndPoint : Prop :=
  (∀ v : Slot, v.toWord.extractLsb' 0 16 = v.mask ∧ v.toWord.getLsbD 16 = v.dot) ∧
  (∀ w : SlotWord, (Slot.ofWord w).toWord = w)

/-- R62, R64 on a few requests written out from the spec's programs P1 and P3. -/
def Obligations.SpecRequestsDecode : Prop :=
  decode { op := 0b011#3, ch := none, slots := none, text := some [0x30#32, 0x2E#32, 0x41#32] } =
    .ok (.textToSlots [0x30#32, 0x2E#32, 0x41#32]) ∧
  decode { op := 0b001#3, ch := none, slots := some [0x10C3F#17, 0x000F7#17], text := none } =
    .ok (.encodeSlots [⟨0x0C3F#16, true⟩, ⟨0x00F7#16, false⟩]) ∧
  decode { op := 0b100#3, ch := none, slots := none, text := some [0x30#32, 0x2E#32, 0x41#32] } =
    .ok (.encodeText [0x30#32, 0x2E#32, 0x41#32]) ∧
  decode { op := 0b000#3, ch := some 0x141#32, slots := none, text := none } =
    .ok (.lookup 0x141#32) ∧
  decode { op := 0b010#3, ch := none, slots := none, text := none } = .ok .clearFrame ∧
  decode { op := 0b110#3, ch := none, slots := none, text := none } = .ok .reserved110

/-- The pseudo-instruction (R75, the spec's own decision D17): BLANK assembles to ENCODE with an
empty slot list, and its result is CLEAR_FRAME's. -/
def Obligations.BlankLineIsAnEmptyEncode : Prop :=
  ∀ s : State, AsmLine.blank.assemble s = .encodeSlots [] ∧
    exec (AsmLine.blank.assemble s) s = exec .clearFrame s

/-- R74, R107: a sentinel is reached through ENCODE's slot list: in a state whose sentinels hold
their values, `%blank` stands for `0x0000` and `%allon` for `MASK_ALL_ON`, each with its point. -/
def Obligations.SentinelOperandsEncodeTheirMasks : Prop :=
  ∀ (s : State) (a b : Bool), Constants s →
    exec ((AsmLine.encode [.blank a, .allOn b]).assemble s) s =
      .next (answered (.ok (.frame (ClosedForm.frame s.params
        [⟨0x0000#16, a⟩, ⟨Config.maskAllOn, b⟩]))) s)

/-! ### The step and the ports -/

/-- A request on the port that decodes to an instruction well-formed under the state's parameters is
run: the step is exec of it. At the values R10 gives every instruction is (notes/assumptions/2.md).
The ports are R60's; that the step runs what stands on the request port is the model's form of R27
and R245 (notes/assumptions/5.md). -/
def Obligations.StepRunsTheDecodedRequest : Prop :=
  ∀ (s : State) (q : RawRequest) (i : Instr), s.request = some q → s.response = none →
    decode q = .ok i → i.wellFormed s.params = true → step s = exec i s

/-- The bounds a realisation may set (R10, decisions D2 and D12), as the model checks them
(notes/assumptions/2.md): an instruction is well-formed exactly if its characters fit `CHAR_WIDTH` bits
and its text, if it has one, is no longer than `TEXT_MAX`; a step is refused as outsideParameters
exactly if the request it would run decodes to an instruction that is not well-formed under the state's
parameters, and at the values R10 gives none is. -/
def Obligations.OnlyRequestsOutsideTheBoundsAreRefused : Prop :=
  (∀ (p : Params) (text : Text),
    ((Instr.textToSlots text).wellFormed p = true ↔
      (∀ c ∈ text, c.toNat < 2 ^ p.charWidth.val) ∧ ∀ n, p.textMax = some n → text.length ≤ n) ∧
    ((Instr.encodeText text).wellFormed p = true ↔
      (∀ c ∈ text, c.toNat < 2 ^ p.charWidth.val) ∧ ∀ n, p.textMax = some n → text.length ≤ n)) ∧
  (∀ (p : Params) (c : Ch),
    (Instr.lookup c).wellFormed p = true ↔ c.toNat < 2 ^ p.charWidth.val) ∧
  (∀ (p : Params) (i : Instr), i.op ≠ 0b000#3 → i.op ≠ 0b011#3 → i.op ≠ 0b100#3 →
    i.wellFormed p = true) ∧
  (∀ s : State, (∃ why, step s = .refused (.outsideParameters why)) ↔
    ∃ q i, s.request = some q ∧ s.response = none ∧ decode q = .ok i ∧
      i.wellFormed s.params = false) ∧
  (∀ i : Instr, i.wellFormed Config.params = true)

/-- Overlap (R244, the spec's own decision D15; what counts as in progress is
notes/assumptions/6.md): a request presented while the previous response is undelivered is refused,
whatever it is. -/
def Obligations.SecondRequestIsRefused : Prop :=
  ∀ (s : State) (q : RawRequest) (r : Response), s.request = some q → s.response = some r →
    step s = .refused .requestWhileBusy

/-- R61: a record whose operand is not the one its `op` selects is no request: the step refuses it
by name and takes no other step (the refusal is the model's choice, notes/assumptions/3.md). -/
def Obligations.WrongOperandIsRefused : Prop :=
  ∀ (s : State) (q : RawRequest), s.request = some q → s.response = none → q.op.toNat ≤ 4 →
    (∀ i, q ≠ encode i) → ∃ why, step s = .refused (.malformedRequest why)

/-- The caller's side of the ports (R60, R244; the script is the model's own,
notes/assumptions/5.md): with no request in progress a request of the script goes to the port, and
taking the response empties the response port (R29); with an empty script nothing happens. -/
def Obligations.CallerMovesBetweenOperations : Prop :=
  ∀ (s : State), s.request = none →
    (s.script = [] → step s = .next s) ∧
    (∀ q rest, s.script = .present q :: rest →
      step s = .next { s with script := rest, request := some q }) ∧
    (∀ rest, s.script = .takeResponse :: rest →
      step s = .next { s with
        script := rest, response := none, received := s.received ++ s.response.toList })

/-- No step of the machine faults: no rule reads a working register that holds no value (R24, I9;
R246). -/
def Obligations.NoStepFaults : Prop :=
  ∀ s : State, FaultFree (step s)

/-- The invariant at reset: the constants hold their values and no working register holds one (R32, R240
and the spec's own decision D14; notes/assumptions/4.md), no response is pending (R240), and none has
been taken (the list of those is the model's own field, empty by notes/assumptions/5.md). -/
def Obligations.InvariantHoldsAtReset : Prop :=
  Inv State.reset ∧ State.reset.response = none ∧ State.reset.received = []

/-- The invariant is kept by every step: the constants stay (R20), the working registers hold
nothing between operations (R32), and every response pending or delivered is one the spec allows:
byte 0 of a frame is zero (R122), a slot list has at most 4 slots (R149), masks come from the table,
and errors have their causes. -/
def Obligations.EveryStepKeepsTheInvariant : Prop :=
  ∀ s t : State, Inv s → step s = .next t → Inv t

/-- From R241 (the spec's own inference) and the end state of the programs P1 to P3: requests presented
one after the other, each response taken before the next, are answered in order, each as if it were
the first, and leave the machine as they found it. The script that presents them and the list of the
responses taken are the model's own fields (notes/assumptions/5.md); the answer of a reserved code is
its choice (notes/assumptions/8.md), and the closed forms of frame and scan are the spec's own
inferences R130 and R152. -/
def Obligations.RequestsAreAnsweredInOrder : Prop :=
  ∀ (is : List Instr) (s : State) (rest : List CallerAction),
    Resting s → s.request = none → s.response = none →
    (∀ i ∈ is, i.wellFormed s.params = true) →
    Host.Core.run core (3 * is.length)
        { s with script := is.flatMap (fun i => [.present (encode i), .takeResponse]) ++ rest } =
      .next { s with script := rest, received := s.received ++ is.map (ClosedForm.response s) }
end

