-- ==== Sys2Proof/Laws/State.lean ====
section
/-! SUPPORT. One lemma for each field of State under each update, true by rfl. -/

namespace Sys2Proof.Machine

/-! ### writeSlot -/

@[simp] theorem State.writeSlot_params (s : State) (i : Fin 4) (v : Slot) : (s.writeSlot i v).params = s.params := rfl
@[simp] theorem State.writeSlot_segMap (s : State) (i : Fin 4) (v : Slot) : (s.writeSlot i v).segMap = s.segMap := rfl
@[simp] theorem State.writeSlot_maskBlank (s : State) (i : Fin 4) (v : Slot) : (s.writeSlot i v).maskBlank = s.maskBlank := rfl
@[simp] theorem State.writeSlot_maskAllOn (s : State) (i : Fin 4) (v : Slot) : (s.writeSlot i v).maskAllOn = s.maskAllOn := rfl
@[simp] theorem State.writeSlot_k (s : State) (i : Fin 4) (v : Slot) : (s.writeSlot i v).k = s.k := rfl
@[simp] theorem State.writeSlot_slot (s : State) (i : Fin 4) (v : Slot) : (s.writeSlot i v).slot = s.slot.set i (some v) := rfl
@[simp] theorem State.writeSlot_frame (s : State) (i : Fin 4) (v : Slot) : (s.writeSlot i v).frame = s.frame := rfl
@[simp] theorem State.writeSlot_j (s : State) (i : Fin 4) (v : Slot) : (s.writeSlot i v).j = s.j := rfl
@[simp] theorem State.writeSlot_request (s : State) (i : Fin 4) (v : Slot) : (s.writeSlot i v).request = s.request := rfl
@[simp] theorem State.writeSlot_response (s : State) (i : Fin 4) (v : Slot) : (s.writeSlot i v).response = s.response := rfl
@[simp] theorem State.writeSlot_script (s : State) (i : Fin 4) (v : Slot) : (s.writeSlot i v).script = s.script := rfl
@[simp] theorem State.writeSlot_received (s : State) (i : Fin 4) (v : Slot) : (s.writeSlot i v).received = s.received := rfl

/-! ### zeroFrame -/

@[simp] theorem State.zeroFrame_params (s : State) : (s.zeroFrame).params = s.params := rfl
@[simp] theorem State.zeroFrame_segMap (s : State) : (s.zeroFrame).segMap = s.segMap := rfl
@[simp] theorem State.zeroFrame_maskBlank (s : State) : (s.zeroFrame).maskBlank = s.maskBlank := rfl
@[simp] theorem State.zeroFrame_maskAllOn (s : State) : (s.zeroFrame).maskAllOn = s.maskAllOn := rfl
@[simp] theorem State.zeroFrame_k (s : State) : (s.zeroFrame).k = s.k := rfl
@[simp] theorem State.zeroFrame_slot (s : State) : (s.zeroFrame).slot = s.slot := rfl
@[simp] theorem State.zeroFrame_frame (s : State) : (s.zeroFrame).frame = some (Vector.replicate 9 0x00#8) := rfl
@[simp] theorem State.zeroFrame_j (s : State) : (s.zeroFrame).j = s.j := rfl
@[simp] theorem State.zeroFrame_request (s : State) : (s.zeroFrame).request = s.request := rfl
@[simp] theorem State.zeroFrame_response (s : State) : (s.zeroFrame).response = s.response := rfl
@[simp] theorem State.zeroFrame_script (s : State) : (s.zeroFrame).script = s.script := rfl
@[simp] theorem State.zeroFrame_received (s : State) : (s.zeroFrame).received = s.received := rfl

/-! ### startScan -/

@[simp] theorem State.startScan_params (s : State) : (s.startScan).params = s.params := rfl
@[simp] theorem State.startScan_segMap (s : State) : (s.startScan).segMap = s.segMap := rfl
@[simp] theorem State.startScan_maskBlank (s : State) : (s.startScan).maskBlank = s.maskBlank := rfl
@[simp] theorem State.startScan_maskAllOn (s : State) : (s.startScan).maskAllOn = s.maskAllOn := rfl
@[simp] theorem State.startScan_k (s : State) : (s.startScan).k = some 0 := rfl
@[simp] theorem State.startScan_slot (s : State) : (s.startScan).slot = emptySlots := rfl
@[simp] theorem State.startScan_frame (s : State) : (s.startScan).frame = s.frame := rfl
@[simp] theorem State.startScan_j (s : State) : (s.startScan).j = some 0 := rfl
@[simp] theorem State.startScan_request (s : State) : (s.startScan).request = s.request := rfl
@[simp] theorem State.startScan_response (s : State) : (s.startScan).response = s.response := rfl
@[simp] theorem State.startScan_script (s : State) : (s.startScan).script = s.script := rfl
@[simp] theorem State.startScan_received (s : State) : (s.startScan).received = s.received := rfl

/-! ### advanceScan -/

@[simp] theorem State.advanceScan_params (s : State) (j : Nat) : (s.advanceScan j).params = s.params := rfl
@[simp] theorem State.advanceScan_segMap (s : State) (j : Nat) : (s.advanceScan j).segMap = s.segMap := rfl
@[simp] theorem State.advanceScan_maskBlank (s : State) (j : Nat) : (s.advanceScan j).maskBlank = s.maskBlank := rfl
@[simp] theorem State.advanceScan_maskAllOn (s : State) (j : Nat) : (s.advanceScan j).maskAllOn = s.maskAllOn := rfl
@[simp] theorem State.advanceScan_k (s : State) (j : Nat) : (s.advanceScan j).k = s.k := rfl
@[simp] theorem State.advanceScan_slot (s : State) (j : Nat) : (s.advanceScan j).slot = s.slot := rfl
@[simp] theorem State.advanceScan_frame (s : State) (j : Nat) : (s.advanceScan j).frame = s.frame := rfl
@[simp] theorem State.advanceScan_j (s : State) (j : Nat) : (s.advanceScan j).j = some (j + 1) := rfl
@[simp] theorem State.advanceScan_request (s : State) (j : Nat) : (s.advanceScan j).request = s.request := rfl
@[simp] theorem State.advanceScan_response (s : State) (j : Nat) : (s.advanceScan j).response = s.response := rfl
@[simp] theorem State.advanceScan_script (s : State) (j : Nat) : (s.advanceScan j).script = s.script := rfl
@[simp] theorem State.advanceScan_received (s : State) (j : Nat) : (s.advanceScan j).received = s.received := rfl

/-! ### consumeSlot -/

@[simp] theorem State.consumeSlot_params (s : State) (k : Fin 4) (m : Mask) : (s.consumeSlot k m).params = s.params := rfl
@[simp] theorem State.consumeSlot_segMap (s : State) (k : Fin 4) (m : Mask) : (s.consumeSlot k m).segMap = s.segMap := rfl
@[simp] theorem State.consumeSlot_maskBlank (s : State) (k : Fin 4) (m : Mask) : (s.consumeSlot k m).maskBlank = s.maskBlank := rfl
@[simp] theorem State.consumeSlot_maskAllOn (s : State) (k : Fin 4) (m : Mask) : (s.consumeSlot k m).maskAllOn = s.maskAllOn := rfl
@[simp] theorem State.consumeSlot_k (s : State) (k : Fin 4) (m : Mask) : (s.consumeSlot k m).k = some k.succ := rfl
@[simp] theorem State.consumeSlot_slot (s : State) (k : Fin 4) (m : Mask) : (s.consumeSlot k m).slot = s.slot.set k (some (consumedSlot m)) := rfl
@[simp] theorem State.consumeSlot_frame (s : State) (k : Fin 4) (m : Mask) : (s.consumeSlot k m).frame = s.frame := rfl
@[simp] theorem State.consumeSlot_j (s : State) (k : Fin 4) (m : Mask) : (s.consumeSlot k m).j = s.j := rfl
@[simp] theorem State.consumeSlot_request (s : State) (k : Fin 4) (m : Mask) : (s.consumeSlot k m).request = s.request := rfl
@[simp] theorem State.consumeSlot_response (s : State) (k : Fin 4) (m : Mask) : (s.consumeSlot k m).response = s.response := rfl
@[simp] theorem State.consumeSlot_script (s : State) (k : Fin 4) (m : Mask) : (s.consumeSlot k m).script = s.script := rfl
@[simp] theorem State.consumeSlot_received (s : State) (k : Fin 4) (m : Mask) : (s.consumeSlot k m).received = s.received := rfl

/-! ### releaseWork -/

@[simp] theorem State.releaseWork_params (s : State) : (s.releaseWork).params = s.params := rfl
@[simp] theorem State.releaseWork_segMap (s : State) : (s.releaseWork).segMap = s.segMap := rfl
@[simp] theorem State.releaseWork_maskBlank (s : State) : (s.releaseWork).maskBlank = s.maskBlank := rfl
@[simp] theorem State.releaseWork_maskAllOn (s : State) : (s.releaseWork).maskAllOn = s.maskAllOn := rfl
@[simp] theorem State.releaseWork_k (s : State) : (s.releaseWork).k = none := rfl
@[simp] theorem State.releaseWork_slot (s : State) : (s.releaseWork).slot = emptySlots := rfl
@[simp] theorem State.releaseWork_frame (s : State) : (s.releaseWork).frame = none := rfl
@[simp] theorem State.releaseWork_j (s : State) : (s.releaseWork).j = none := rfl
@[simp] theorem State.releaseWork_request (s : State) : (s.releaseWork).request = s.request := rfl
@[simp] theorem State.releaseWork_response (s : State) : (s.releaseWork).response = s.response := rfl
@[simp] theorem State.releaseWork_script (s : State) : (s.releaseWork).script = s.script := rfl
@[simp] theorem State.releaseWork_received (s : State) : (s.releaseWork).received = s.received := rfl

/-! ### present -/

@[simp] theorem State.present_params (s : State) (r : RawRequest) : (s.present r).params = s.params := rfl
@[simp] theorem State.present_segMap (s : State) (r : RawRequest) : (s.present r).segMap = s.segMap := rfl
@[simp] theorem State.present_maskBlank (s : State) (r : RawRequest) : (s.present r).maskBlank = s.maskBlank := rfl
@[simp] theorem State.present_maskAllOn (s : State) (r : RawRequest) : (s.present r).maskAllOn = s.maskAllOn := rfl
@[simp] theorem State.present_k (s : State) (r : RawRequest) : (s.present r).k = s.k := rfl
@[simp] theorem State.present_slot (s : State) (r : RawRequest) : (s.present r).slot = s.slot := rfl
@[simp] theorem State.present_frame (s : State) (r : RawRequest) : (s.present r).frame = s.frame := rfl
@[simp] theorem State.present_j (s : State) (r : RawRequest) : (s.present r).j = s.j := rfl
@[simp] theorem State.present_request (s : State) (r : RawRequest) : (s.present r).request = some r := rfl
@[simp] theorem State.present_response (s : State) (r : RawRequest) : (s.present r).response = s.response := rfl
@[simp] theorem State.present_script (s : State) (r : RawRequest) : (s.present r).script = s.script := rfl
@[simp] theorem State.present_received (s : State) (r : RawRequest) : (s.present r).received = s.received := rfl

/-! ### deliver -/

@[simp] theorem State.deliver_params (s : State) : (s.deliver).params = s.params := rfl
@[simp] theorem State.deliver_segMap (s : State) : (s.deliver).segMap = s.segMap := rfl
@[simp] theorem State.deliver_maskBlank (s : State) : (s.deliver).maskBlank = s.maskBlank := rfl
@[simp] theorem State.deliver_maskAllOn (s : State) : (s.deliver).maskAllOn = s.maskAllOn := rfl
@[simp] theorem State.deliver_k (s : State) : (s.deliver).k = s.k := rfl
@[simp] theorem State.deliver_slot (s : State) : (s.deliver).slot = s.slot := rfl
@[simp] theorem State.deliver_frame (s : State) : (s.deliver).frame = s.frame := rfl
@[simp] theorem State.deliver_j (s : State) : (s.deliver).j = s.j := rfl
@[simp] theorem State.deliver_request (s : State) : (s.deliver).request = s.request := rfl
@[simp] theorem State.deliver_response (s : State) : (s.deliver).response = none := rfl
@[simp] theorem State.deliver_script (s : State) : (s.deliver).script = s.script := rfl
@[simp] theorem State.deliver_received (s : State) : (s.deliver).received = s.received ++ s.response.toList := rfl

/-! ### answered -/

@[simp] theorem answered_params (r : Response) (s : State) : (answered r s).params = s.params := rfl
@[simp] theorem answered_segMap (r : Response) (s : State) : (answered r s).segMap = s.segMap := rfl
@[simp] theorem answered_maskBlank (r : Response) (s : State) : (answered r s).maskBlank = s.maskBlank := rfl
@[simp] theorem answered_maskAllOn (r : Response) (s : State) : (answered r s).maskAllOn = s.maskAllOn := rfl
@[simp] theorem answered_k (r : Response) (s : State) : (answered r s).k = none := rfl
@[simp] theorem answered_slot (r : Response) (s : State) : (answered r s).slot = emptySlots := rfl
@[simp] theorem answered_frame (r : Response) (s : State) : (answered r s).frame = none := rfl
@[simp] theorem answered_j (r : Response) (s : State) : (answered r s).j = none := rfl
@[simp] theorem answered_request (r : Response) (s : State) : (answered r s).request = none := rfl
@[simp] theorem answered_response (r : Response) (s : State) : (answered r s).response = some r := rfl
@[simp] theorem answered_script (r : Response) (s : State) : (answered r s).script = s.script := rfl
@[simp] theorem answered_received (r : Response) (s : State) : (answered r s).received = s.received := rfl

end Sys2Proof.Machine
end

