-- ==== Sys2Proof/Laws/Ops.lean ====
section
/-! SUPPORT. One lemma for each shared operation: everything it can do. -/

namespace Sys2Proof.Machine

/-! ### The table -/

theorem tableRead_supported (s : State) (c : Ch) (h : 0x20 ≤ c.toNat ∧ c.toNat ≤ 0x7E) :
    s.tableRead c = some (s.segMap[c.toNat - 0x20]'(by omega)) := by
  simp [State.tableRead, h]

theorem tableRead_unsupported (s : State) (c : Ch) (h : ¬(0x20 ≤ c.toNat ∧ c.toNat ≤ 0x7E)) :
    s.tableRead c = none := by
  simp only [State.tableRead, h, dite_false]

/-- A read of the table depends on the table alone. -/
theorem tableRead_congr {s t : State} (h : s.segMap = t.segMap) : s.tableRead = t.tableRead := by
  funext c; simp only [State.tableRead, h]

theorem tableRead_mem {s : State} {c : Ch} {m : Mask} (h : s.tableRead c = some m) :
    m ∈ s.segMap.toList := by
  unfold State.tableRead at h
  split at h
  · obtain rfl := Option.some.inj h; simp
  · cases h

theorem tableRead_eq_none_iff (s : State) (c : Ch) :
    s.tableRead c = none ↔ ¬(0x20 ≤ c.toNat ∧ c.toNat ≤ 0x7E) := by
  by_cases h : 0x20 ≤ c.toNat ∧ c.toNat ≤ 0x7E
  · simp [tableRead_supported s c h, h]
  · simp [tableRead_unsupported s c h, h]

/-! ### The working registers -/

theorem readK_of_some {s : State} {k : Fin 5} (h : s.k = some k) : s.readK = .ok k := by
  simp [State.readK, h]

theorem readJ_of_some {s : State} {j : Nat} (h : s.j = some j) : s.readJ = .ok j := by
  simp [State.readJ, h]

theorem readSlot_of_some {s : State} {i : Fin 4} {v : Slot} (h : s.slot[i] = some v) :
    s.readSlot i = .ok v := by
  simp only [State.readSlot, h]

theorem readFrame_of_some {s : State} {f : Frame} (h : s.frame = some f) : s.readFrame = .ok f := by
  simp [State.readFrame, h]

theorem writeFrame_of_some {s : State} {f : Frame} (x : Fin 9) (v : Byte) (h : s.frame = some f) :
    s.writeFrame x v = .ok { s with frame := some (f.set x v) } := by
  simp only [State.writeFrame, readFrame_of_some h]; rfl

theorem orFrame_of_some {s : State} {f : Frame} (x : Fin 9) (v : Byte) (h : s.frame = some f) :
    s.orFrame x v = .ok { s with frame := some (f.set x (f[x] ||| v)) } := by
  simp only [State.orFrame, readFrame_of_some h]
  exact writeFrame_of_some x _ h

theorem attachPoint_of_some {s : State} {i : Fin 4} {v : Slot} (h : s.slot[i] = some v) :
    s.attachPoint i = .ok (s.writeSlot i (withPoint v)) := by
  simp only [State.attachPoint, readSlot_of_some h]; rfl

/-! ### The end of an operation -/

theorem respond_eq (r : Response) (s : State) : respond r s = .next (answered r s) := rfl

theorem raise_eq (e : SmfeError) (s : State) : raise e s = .next (answered (.error e) s) := rfl

theorem conclude_ok (s t : State) (res : Result) :
    conclude s (.ok (res, t)) = .next (answered (.ok res) t) := rfl

theorem conclude_error (s : State) (e : SmfeError) :
    conclude s (.error (.error e)) = .next (answered (.error e) s) := rfl

theorem conclude_fault (s : State) (f : Fault) : conclude s (.error (.fault f)) = .fault f := rfl

/-- What `answered` reads of the state an operation ends in: two states that differ in working registers
and response port alone are answered alike. -/
theorem answered_congr {s t : State} (r : Response) (h0 : s.params = t.params)
    (h1 : s.segMap = t.segMap) (h2 : s.maskBlank = t.maskBlank) (h3 : s.maskAllOn = t.maskAllOn)
    (h4 : s.script = t.script) (h5 : s.received = t.received) : answered r s = answered r t := by
  simp only [answered, h0, h1, h2, h3, h4, h5]

/-! ### The ports -/

theorem fetch_idle {s : State} (h : s.request = none) : fetch s = none := by
  simp [fetch, h]

theorem fetch_busy {s : State} {q : RawRequest} {r : Response} (h : s.request = some q)
    (hr : s.response = some r) : fetch s = some (.error .requestWhileBusy) := by
  simp [fetch, h, hr]

theorem fetch_malformed {s : State} {q : RawRequest} {why : DecodeError} (h : s.request = some q)
    (hr : s.response = none) (hd : decode q = .error why) :
    fetch s = some (.error (.malformedRequest why)) := by
  simp [fetch, h, hr, hd]

theorem outside_of_wellFormed {p : Params} {i : Instr} (h : i.wellFormed p = true) :
    i.outside p = none := Option.isNone_iff_eq_none.mp h

theorem fetch_decoded {s : State} {q : RawRequest} {i : Instr} (h : s.request = some q)
    (hr : s.response = none) (hd : decode q = .ok i) (hw : i.wellFormed s.params = true) :
    fetch s = some (.ok i) := by
  simp [fetch, h, hr, hd, outside_of_wellFormed hw]

theorem fetch_outside {s : State} {q : RawRequest} {i : Instr} {why : BoundError}
    (h : s.request = some q) (hr : s.response = none) (hd : decode q = .ok i)
    (ho : i.outside s.params = some why) :
    fetch s = some (.error (.outsideParameters why)) := by
  simp [fetch, h, hr, hd, ho]

/-- Every step that answers a next state is a move of the caller, with no request in progress, or the
run of the instruction fetched. -/
theorem step_cases {s t : State} (h : step s = .next t) :
    (s.request = none ∧ t = callerMove s) ∨
    (∃ q i, s.request = some q ∧ s.response = none ∧ decode q = .ok i ∧
      i.wellFormed s.params = true ∧ exec i s = .next t) := by
  unfold step fetch at h
  split at h
  · next hf =>
    split at hf
    · next hq => exact .inl ⟨hq, (Host.Outcome.next.inj h).symm⟩
    · split at hf
      · cases hf
      · split at hf
        · cases hf
        · split at hf <;> cases hf
  · cases h
  · next i hf =>
    split at hf
    · cases hf
    · next q hq =>
      split at hf
      · cases hf
      · next hr =>
        split at hf
        · cases hf
        · next i' hd =>
          split at hf
          · cases hf
          · next hw =>
            obtain rfl := Except.ok.inj (Option.some.inj hf)
            exact .inr ⟨q, i', hq, hr, hd, by simp [Instr.wellFormed, hw], h⟩

/-- What the caller's move can be. -/
theorem callerMove_cases (s : State) :
    (s.script = [] ∧ callerMove s = s) ∨
    (∃ r rest, s.script = .present r :: rest ∧
      callerMove s = { s with script := rest, request := some r }) ∨
    (∃ rest, s.script = .takeResponse :: rest ∧
      callerMove s =
        { s with script := rest, response := none, received := s.received ++ s.response.toList }) := by
  unfold callerMove
  split
  · next h => exact .inl ⟨h, rfl⟩
  · next r rest h => exact .inr (.inl ⟨r, rest, h, rfl⟩)
  · next rest h => exact .inr (.inr ⟨rest, h, rfl⟩)

/-- A text is admitted exactly when its characters fit the field and its length is within the bound. -/
theorem textOutside_eq_none_iff (p : Params) (text : Text) :
    textOutside p text = none ↔
      (∀ c ∈ text, c.toNat < 2 ^ p.charWidth.val) ∧ ∀ n, p.textMax = some n → text.length ≤ n := by
  have hall : text.all (charWithin p) = true ↔ ∀ c ∈ text, c.toNat < 2 ^ p.charWidth.val := by
    simp [charWithin]
  have hmax : textWithin p text = true ↔ ∀ n, p.textMax = some n → text.length ≤ n := by
    unfold textWithin; split <;> simp [*]
  rw [← hall, ← hmax]
  unfold textOutside
  split
  · split <;> simp [*]
  · simp [*]

/-- With the parameters at the values R10 gives every instruction is admitted (R72, D2, D12). -/
theorem wellFormed_default (i : Instr) : WellFormed i := by
  have hc : ∀ c : Ch, c.toNat < 2 ^ Config.params.charWidth.val := fun c => c.isLt
  have ht : ∀ text : Text, textOutside Config.params text = none := fun text =>
    (textOutside_eq_none_iff _ _).mpr ⟨fun c _ => hc c, fun n h => by cases h⟩
  cases i <;> simp [WellFormed, Instr.wellFormed, Instr.outside, ht, charWithin, hc]

end Sys2Proof.Machine
end

