-- ==== Sys2Proof/Laws/Encoder.lean ====
section
/-! SUPPORT. What the encoder does to a state: it writes the frame buffer and nothing else, and what it
writes is a fold of one pure packing step over the listed slots. -/

namespace Sys2Proof.Machine

/-- Packing one slot into a frame. -/
def packed (p : Params) (f : Frame) (i : Fin 4) (v : Slot) : Frame :=
  let f := (f.set (slotByte i .one) (lowByte v.mask)).set (slotByte i .two) (highByte v.mask)
  if v.dot then
    f.set (slotByte i p.dpByteOffset) (f[slotByte i p.dpByteOffset] ||| pointBit p)
  else f

theorem packSlot_of_some (p : Params) (i : Fin 4) (v : Slot) {s : State} {f : Frame}
    (h : s.frame = some f) :
    packSlot p i v s = .ok { s with frame := some (packed p f i v) } := by
  simp only [packSlot, writeFrame_of_some _ _ h, packed, bind, Except.bind,
    writeFrame_of_some (s := { s with frame := _ }) _ _ rfl]
  split
  · rw [orFrame_of_some (f := _) _ _ rfl]
  · rfl

theorem packSlots_of_some (p : Params) (l : List (Fin 4 × Slot)) {s : State} {f : Frame}
    (h : s.frame = some f) :
    packSlots p l s =
      .ok { s with frame := some (l.foldl (fun f iv => packed p f iv.1 iv.2) f) } := by
  induction l generalizing s f with
  | nil => simp only [packSlots, List.foldl_nil, ← h]
  | cons iv rest ih =>
    obtain ⟨i, v⟩ := iv
    simp only [packSlots, packSlot_of_some p i v h, bind, Except.bind, List.foldl_cons]
    rw [ih rfl]

/-- The frame the encoder leaves for a list of at most 4 slots. -/
def packedFrame (p : Params) (slots : List Slot) : Frame :=
  (List.zip [0, 1, 2, 3] slots).foldl (fun f iv => packed p f iv.1 iv.2) (Vector.replicate 9 0x00#8)

theorem encodeFrame_ok (p : Params) {slots : List Slot} (s : State) (h : slots.length ≤ 4) :
    encodeFrame p slots s = .ok { s with frame := some (packedFrame p slots) } := by
  simp only [encodeFrame, Nat.not_lt.mpr h, if_false]
  exact packSlots_of_some p _ (s := s.zeroFrame) rfl

theorem encodeFrame_tooMany (p : Params) {slots : List Slot} (s : State) (h : 4 < slots.length) :
    encodeFrame p slots s = .error (.error (.tooManySlots slots.length)) := by
  simp [encodeFrame, h]

theorem frameResult_of_some {s : State} {f : Frame} (h : s.frame = some f) :
    frameResult s = .ok (.frame f, s) := by
  simp only [frameResult, readFrame_of_some h]; rfl

end Sys2Proof.Machine
end

