-- ==== Sys2Proof/Laws/Scan.lean ====
section
/-! SUPPORT. What the scan does to a state: from a state that holds `l` as its slots it steps as a pure
scan of lists does, and writes `k`, `j` and the slot buffer alone. -/

namespace Sys2Proof.Machine

/-- The slot buffer that holds a list of slots. -/
def slotBuffer (l : List Slot) : Vector (Option Slot) 4 := #v[l[0]?, l[1]?, l[2]?, l[3]?]

/-- A state in the middle of a scan: `l` are the slots consumed, `j` is the scan position. -/
def State.scanning (s : State) (l : List Slot) (j : Nat) : State :=
  { s with k := some (Fin.ofNat 5 l.length), slot := slotBuffer l, j := some j }

/-- One step of the scan, on the list of the slots consumed so far. -/
def scanList (tab : Ch → Option Mask) (c : Ch) (l : List Slot) (j : Nat) :
    Except SmfeError (List Slot) :=
  if isPeriod c then .ok (l.modify (l.length - 1) withPoint)
  else if l.length < 4 then
    match tab c with
    | some m => .ok (l ++ [consumedSlot m])
    | none => .error (.unsupportedCharacter c j)
  else .error (.textTooLong j)

/-- The scan on lists. -/
def scanLists (tab : Ch → Option Mask) : Text → List Slot → Nat → Except SmfeError (List Slot)
  | [], l, _ => .ok l
  | c :: rest, l, j =>
    match scanList tab c l j with
    | .ok l' => scanLists tab rest l' (j + 1)
    | .error e => .error e

theorem startScan_eq (s : State) : s.startScan = s.scanning [] 0 := rfl

theorem scanList_length {tab : Ch → Option Mask} {c : Ch} {l l' : List Slot} {j : Nat}
    (hl : l.length ≤ 4) (h : scanList tab c l j = .ok l') : l'.length ≤ 4 := by
  unfold scanList at h
  split at h
  · obtain rfl := Except.ok.inj h; simpa using hl
  · split at h
    · split at h
      · obtain rfl := Except.ok.inj h; simp; omega
      · cases h
    · cases h

theorem slotBuffer_consume {l : List Slot} (v : Slot) (h : l.length < 4) :
    (slotBuffer l).set l.length (some v) h = slotBuffer (l ++ [v]) := by
  match l, h with
  | [], _ => rfl
  | [_], _ => rfl
  | [_, _], _ => rfl
  | [_, _, _], _ => rfl
  | _ :: _ :: _ :: _ :: _, h => simp at h; omega

theorem slotBuffer_attach {l : List Slot} (hl : l.length ≤ 4) (h0 : l.length ≠ 0) :
    ∃ v, (slotBuffer l)[l.length - 1]'(by omega) = some v ∧
      (slotBuffer l).set (l.length - 1) (some (withPoint v)) (by omega) =
        slotBuffer (l.modify (l.length - 1) withPoint) := by
  match l, hl with
  | [], _ => exact absurd rfl h0
  | [a], _ => exact ⟨a, rfl, rfl⟩
  | [_, a], _ => exact ⟨a, rfl, rfl⟩
  | [_, _, a], _ => exact ⟨a, rfl, rfl⟩
  | [_, _, _, a], _ => exact ⟨a, rfl, rfl⟩
  | _ :: _ :: _ :: _ :: _ :: _, h => simp at h; omega

theorem scanChar_scanning (c : Ch) (s : State) (l : List Slot) (j : Nat) (hl : l.length ≤ 4) :
    scanChar c (s.scanning l j) =
      match scanList s.tableRead c l j with
      | .ok l' => .ok (s.scanning l' (j + 1))
      | .error e => .error (.error e) := by
  have hk : (s.scanning l j).readK = .ok (Fin.ofNat 5 l.length) := rfl
  have hj : (s.scanning l j).readJ = .ok j := rfl
  have ht : (s.scanning l j).tableRead c = s.tableRead c := rfl
  have hv : (Fin.ofNat 5 l.length).val = l.length := by simp; omega
  simp only [scanChar, scanList, hk, hj, ht, hv, bind, Except.bind, pure, Except.pure]
  by_cases hc : isPeriod c = true
  · simp only [hc, if_true]
    by_cases h0 : l.length = 0
    · obtain rfl := List.length_eq_zero_iff.mp h0
      rfl
    · obtain ⟨v, hg, hs⟩ := slotBuffer_attach hl h0
      rw [dif_neg h0, attachPoint_of_some (v := v) hg]
      simp only [State.writeSlot, State.advanceScan, State.scanning, hs, List.length_modify]
  · simp only [hc, Bool.false_eq_true, if_false]
    by_cases h4 : l.length < 4
    · cases s.tableRead c with
      | none => simp [h4]
      | some m =>
        have hs := slotBuffer_consume (consumedSlot m) h4
        have hn : (Fin.succ ⟨l.length, h4⟩ : Fin 5) = Fin.ofNat 5 (l ++ [consumedSlot m]).length := by
          ext; simp; omega
        simp only [h4, dif_pos, if_true, State.consumeSlot, State.writeSlot, State.advanceScan,
          State.scanning, hn, hs]
    · simp [h4]

/-- The scan of a state is the scan of lists. -/
theorem scan_scanning (text : Text) (s : State) (l : List Slot) (j : Nat) (hl : l.length ≤ 4) :
    scan text (s.scanning l j) =
      match scanLists s.tableRead text l j with
      | .ok l' => .ok (s.scanning l' (j + text.length))
      | .error e => .error (.error e) := by
  induction text generalizing l j with
  | nil => rfl
  | cons c rest ih =>
    simp only [scan, scanLists, scanChar_scanning c s l j hl]
    cases h : scanList s.tableRead c l j with
    | error e => rfl
    | ok l' =>
      simp only [bind, Except.bind, ih l' (j + 1) (scanList_length hl h), List.length_cons]
      rw [show j + (rest.length + 1) = j + 1 + rest.length by omega]

theorem scanLists_length {tab : Ch → Option Mask} {text : Text} {l l' : List Slot} {j : Nat}
    (hl : l.length ≤ 4) (h : scanLists tab text l j = .ok l') : l'.length ≤ 4 := by
  induction text generalizing l j with
  | nil => obtain rfl := Except.ok.inj h; exact hl
  | cons c rest ih =>
    simp only [scanLists] at h
    split at h
    · next l1 h1 => exact ih (scanList_length hl h1) h
    · cases h

/-- The slots a scanning state holds are read back whole. -/
theorem scannedSlots_scanning (s : State) (l : List Slot) (j : Nat) (hl : l.length ≤ 4) :
    scannedSlots (s.scanning l j) = .ok l := by
  match l, hl with
  | [], _ => rfl
  | [_], _ => rfl
  | [_, _], _ => rfl
  | [_, _, _], _ => rfl
  | [_, _, _, _], _ => rfl
  | _ :: _ :: _ :: _ :: _ :: _, h => simp at h; omega

/-- A scan from its start, with its result, on lists. -/
theorem scanText_eq (text : Text) (s : State) :
    scanText text s =
      match scanLists s.tableRead text [] 0 with
      | .ok l => .ok (l, s.scanning l text.length)
      | .error e => .error (.error e) := by
  simp only [scanText, startScan_eq, scan_scanning text s [] 0 (by simp)]
  cases h : scanLists s.tableRead text [] 0 with
  | error e => rfl
  | ok l =>
    simp only [bind, Except.bind, scannedSlots_scanning s l _ (scanLists_length (by simp) h)]
    simp [pure, Except.pure]

end Sys2Proof.Machine
end

