-- ==== Sys2Proof/Laws/Exec.lean ====
section
/-! SUPPORT. Each meaning as one answer: the response is a function of the request, the table and the
parameters, and the state it leaves is `answered`. -/

namespace Sys2Proof.Machine

theorem execLookup_eq (c : Ch) (s : State) :
    execLookup c s = .next (answered (match s.tableRead c with
      | some m => .ok (.mask m)
      | none => .error (.unsupportedCharacter c 0)) s) := by
  unfold execLookup
  cases s.tableRead c <;> rfl

theorem execEncodeSlots_eq (l : List Slot) (s : State) :
    execEncodeSlots l s = .next (answered (if l.length ≤ 4
      then .ok (.frame (packedFrame s.params l)) else .error (.tooManySlots l.length)) s) := by
  unfold execEncodeSlots
  by_cases h : l.length ≤ 4
  · simp only [encodeFrame_ok _ s h, bind, Except.bind, h, if_true]
    rw [frameResult_of_some rfl]
    rfl
  · simp only [encodeFrame_tooMany _ s (Nat.lt_of_not_le h), bind, Except.bind, h, if_false]
    rfl

theorem execClearFrame_eq (s : State) :
    execClearFrame s = .next (answered (.ok (.frame (Vector.replicate 9 0x00#8))) s) := rfl

theorem execTextToSlots_eq (text : Text) (s : State) :
    execTextToSlots text s = .next (answered (match scanLists s.tableRead text [] 0 with
      | .ok l => .ok (.slots l)
      | .error e => .error e) s) := by
  unfold execTextToSlots
  rw [scanText_eq]
  cases scanLists s.tableRead text [] 0 <;> rfl

theorem execEncodeText_eq (text : Text) (s : State) :
    execEncodeText text s = .next (answered (match scanLists s.tableRead text [] 0 with
      | .ok l => .ok (.frame (packedFrame s.params l))
      | .error e => .error e) s) := by
  unfold execEncodeText
  rw [scanText_eq]
  cases h : scanLists s.tableRead text [] 0 with
  | error e => rfl
  | ok l =>
    simp only [bind, Except.bind,
      encodeFrame_ok s.params (s.scanning l text.length) (scanLists_length (by simp) h)]
    rw [frameResult_of_some rfl]
    rfl

end Sys2Proof.Machine
end

