-- ==== Sys2Proof/Laws/PerInstr.lean ====
section
/-! SUPPORT. The laws stated of every instruction, one lemma for each constructor. -/

namespace Sys2Proof.Laws

theorem op_cases : ∀ op : BitVec 3,
    op = 0 ∨ op = 1 ∨ op = 2 ∨ op = 3 ∨ op = 4 ∨ op = 5 ∨ op = 6 ∨ op = 7 := by decide

/-- Whatever a request decodes to has the request's own op code: no two rows of R62 overlap. -/
theorem op_of_decode {q : RawRequest} {i : Instr} (h : decode q = .ok i) : q.op = i.op := by
  obtain ⟨op, ch, slots, text⟩ := q
  rcases op_cases op with rfl | rfl | rfl | rfl | rfl | rfl | rfl | rfl <;>
    cases ch <;> cases slots <;> cases text <;> simp [decode] at h <;> subst h <;> rfl

/-- An instruction is decoded only from requests with its own op code (R62). -/
def DecodesOnlyFromItsOp.Statement (i : Instr) : Prop := ∀ q : RawRequest, decode q = .ok i → q.op = i.op

theorem DecodesOnlyFromItsOp.lookup (ch : Ch) : Statement (.lookup ch) := fun _ => op_of_decode

theorem DecodesOnlyFromItsOp.encodeSlots (slots : List Slot) : Statement (.encodeSlots slots) :=
  fun _ => op_of_decode

theorem DecodesOnlyFromItsOp.clearFrame : Statement .clearFrame := fun _ => op_of_decode

theorem DecodesOnlyFromItsOp.textToSlots (text : Text) : Statement (.textToSlots text) :=
  fun _ => op_of_decode

theorem DecodesOnlyFromItsOp.encodeText (text : Text) : Statement (.encodeText text) :=
  fun _ => op_of_decode

theorem DecodesOnlyFromItsOp.reserved101 : Statement .reserved101 := fun _ => op_of_decode

theorem DecodesOnlyFromItsOp.reserved110 : Statement .reserved110 := fun _ => op_of_decode

theorem DecodesOnlyFromItsOp.reserved111 : Statement .reserved111 := fun _ => op_of_decode

end Sys2Proof.Laws
end

