-- ==== Sys2Proof/Tests/Slice0.lean ====
section
/-! SUPPORT. Tests of one step or one decoding, their results taken from the spec's own vectors
(95_test_vectors.md, named in each comment) or worked out by hand from the rules named; and for every
statement with hypotheses a witness that meets them. -/

namespace Sys2Proof.Tests

open Sys2Proof.Machine

/-- The response of an operation run right after reset. -/
def answer (i : Instr) : Option Response :=
  match exec i State.reset with
  | .next t => t.response
  | _ => none

/-- The state right after reset of a realisation with given parameters (R10). -/
def resetWith (p : Params) : State := { State.reset with params := p }

/-- The response of the step that runs a request under given parameters, or the refusal. -/
def answerWith (p : Params) (i : Instr) : Option Response ⊕ Option Refusal :=
  match step { resetWith p with request := some (encode i) } with
  | .next t => .inl t.response
  | .refused r => .inr (some r)
  | .fault _ => .inr none

/-- A text from the codes of its characters. -/
def chars (l : List Nat) : Text := l.map (BitVec.ofNat 32)

/-! ### WellFormed: the two bounds, `TEXT_MAX` and `CHAR_WIDTH` -/

theorem test_wellFormed_refuses_a_text_beyond_the_bound :
    Instr.wellFormed { Config.params with textMax := some 2 } (.textToSlots (chars [0x30, 0x30, 0x30])) = false ∧
    Instr.wellFormed { Config.params with textMax := some 2 } (.encodeText (chars [0x30, 0x30, 0x30])) = false ∧
    Instr.wellFormed { Config.params with textMax := some 2 } (.encodeText (chars [0x30, 0x30])) = true := by
  decide

theorem test_wellFormed_refuses_a_character_beyond_the_width :
    Instr.wellFormed { Config.params with charWidth := 8 } (.lookup 0x141#32) = false ∧
    Instr.wellFormed { Config.params with charWidth := 8 } (.encodeText (chars [0x30, 0x141])) = false ∧
    Instr.wellFormed { Config.params with charWidth := 8 } (.lookup 0xFF#32) = true := by decide

/-- The step refuses what is outside a set bound, and runs what is within it (R10, D2, D12). -/
theorem test_step_refuses_outside_the_bounds :
    answerWith { Config.params with textMax := some 2 } (.textToSlots (chars [0x30, 0x2E, 0x2E])) =
      .inr (some (.outsideParameters .textBeyondMax)) ∧
    answerWith { Config.params with charWidth := 8 } (.lookup 0x141#32) =
      .inr (some (.outsideParameters .characterBeyondWidth)) ∧
    answerWith { Config.params with textMax := some 2 } (.textToSlots (chars [0x30, 0x2E])) =
      .inl (some (.ok (.slots [⟨0x0C3F#16, true⟩]))) := by decide

/-! ### Decoding: requests written out from R61 to R65 -/

/-- P3, line 4: `op=000 ch=0x00000141`. -/
theorem test_decode_lookup :
    decode ⟨0b000#3, some 0b00000000000000000000000101000001#32, none, none⟩ = .ok (.lookup 0x141#32) := by
  decide

/-- P1, line 2: `op=001 n=2 slots=[0x10C3F, 0x000F7]`, bit by bit: dot, then the 16 mask bits. -/
theorem test_decode_encodeSlots :
    decode ⟨0b001#3, none, some [0b1_0000110000111111#17, 0b0_0000000011110111#17], none⟩ =
      .ok (.encodeSlots [⟨0x0C3F#16, true⟩, ⟨0x00F7#16, false⟩]) := by decide

/-- R62: `op=010`, no operand. -/
theorem test_decode_clearFrame : decode ⟨0b010#3, none, none, none⟩ = .ok .clearFrame := by decide

/-- P1, lines 1 and 3. -/
theorem test_decode_texts :
    decode ⟨0b011#3, none, none, some [0x30#32, 0x2E#32, 0x41#32]⟩ =
      .ok (.textToSlots [0x30#32, 0x2E#32, 0x41#32]) ∧
    decode ⟨0b100#3, none, none, some [0x30#32, 0x2E#32, 0x41#32]⟩ =
      .ok (.encodeText [0x30#32, 0x2E#32, 0x41#32]) := by decide

/-- R71, R208: the reserved codes, one with an operand that is never examined. -/
theorem test_decode_reserved :
    decode ⟨0b101#3, some 0x41#32, none, some []⟩ = .ok .reserved101 ∧
    decode ⟨0b110#3, none, none, none⟩ = .ok .reserved110 ∧
    decode ⟨0b111#3, none, none, none⟩ = .ok .reserved111 := by decide

/-- R61: operand fields are absent or present as `op` selects. -/
theorem test_decode_refuses_wrong_operands :
    decode ⟨0b000#3, none, none, none⟩ = .error .missingOperand ∧
    decode ⟨0b010#3, some 0x41#32, none, none⟩ = .error .strayOperand ∧
    decode ⟨0b001#3, none, some [], some []⟩ = .error .strayOperand := by decide

/-- R62, R64: encoding P1's second request. -/
theorem test_encode_encodeSlots :
    encode (.encodeSlots [⟨0x0C3F#16, true⟩, ⟨0x00F7#16, false⟩]) =
      ⟨0b001#3, none, some [0x10C3F#17, 0x000F7#17], none⟩ := by decide

/-- The eight rows of the opcode table, as the host numbers them. -/
theorem test_decodeTableWord_rows :
    [0, 1, 2, 3, 4, 5, 6, 7].map (decodeTableWord 8) =
      [some (.lookup 0), some (.encodeSlots []), some .clearFrame, some (.textToSlots []),
       some (.encodeText []), some .reserved101, some .reserved110, some .reserved111] := by decide

/-- The step after placing a row's word runs it: LOOKUP of character 0 fails (L8), a reserved code
answers with its op (Q2). -/
theorem test_withFetchWord_runs_the_row :
    (match step (State.reset.withFetchWord 8 0) with
      | .next t => t.response
      | _ => none) = some (.error (.unsupportedCharacter 0#32 0)) ∧
    (match step (State.reset.withFetchWord 8 7) with
      | .next t => t.response
      | _ => none) = some (.error (.illegalOperation 0b111#3)) := by decide

/-! ### LOOKUP -/

/-- L1 to L3. -/
theorem test_lookup_fixed_entries :
    answer (.lookup 0x20#32) = some (.ok (.mask 0x0000#16)) ∧
    answer (.lookup 0x30#32) = some (.ok (.mask 0x0C3F#16)) ∧
    answer (.lookup 0x41#32) = some (.ok (.mask 0x00F7#16)) := by decide

/-- L6, L7, L11; and L4, whose entry is OPEN. -/
theorem test_lookup_edges :
    answer (.lookup 0x1F#32) = some (.error (.unsupportedCharacter 0x1F#32 0)) ∧
    answer (.lookup 0x7F#32) = some (.error (.unsupportedCharacter 0x7F#32 0)) ∧
    answer (.lookup 0x141#32) = some (.error (.unsupportedCharacter 0x141#32 0)) ∧
    answer (.lookup 0x7E#32) = some (.ok (.mask (Config.segMapOpen 0x7E))) :=
  ⟨by decide, by decide, by decide, rfl⟩

/-! ### ENCODE_SLOTS -/

/-- E9 (every slot, two points) and E3 (a point absorbed). -/
theorem test_encodeSlots_frames :
    answer (.encodeSlots
      [⟨0xFF00#16, true⟩, ⟨0x00FF#16, false⟩, ⟨0x0F0F#16, false⟩, ⟨0xF0F0#16, true⟩]) =
      some (.ok (.frame #v[0x00, 0x40, 0xFF, 0xFF, 0x00, 0x0F, 0x0F, 0xF0, 0xF0])) ∧
    answer (.encodeSlots [⟨0xFFFF#16, true⟩]) =
      some (.ok (.frame #v[0x00, 0xFF, 0xFF, 0, 0, 0, 0, 0, 0])) := by decide

/-- E10: five slots; and E12: `DP_BYTE_OFFSET = 2`, through the step. -/
theorem test_encodeSlots_five_and_offset_two :
    answer (.encodeSlots (List.replicate 5 ⟨0x0000#16, false⟩)) = some (.error (.tooManySlots 5)) ∧
    answerWith { Config.params with dpByteOffset := .two } (.encodeSlots [⟨0x0C3F#16, true⟩]) =
      .inl (some (.ok (.frame #v[0x00, 0x3F, 0x4C, 0, 0, 0, 0, 0, 0]))) := by decide

/-! ### CLEAR_FRAME -/

/-- Z1; the working registers hold nothing afterwards (R32). -/
theorem test_clearFrame :
    answer .clearFrame = some (.ok (.frame #v[0, 0, 0, 0, 0, 0, 0, 0, 0])) ∧
    (match exec .clearFrame State.reset with
      | .next t => t.frame
      | _ => some #v[1, 0, 0, 0, 0, 0, 0, 0, 0]) = none := by decide

/-! ### TEXT_TO_SLOTS -/

/-- T9 and S5: points attach to the slot before them. -/
theorem test_textToSlots_points :
    answer (.textToSlots (chars [0x30, 0x2E, 0x2E, 0x2E, 0x41])) =
      some (.ok (.slots [⟨0x0C3F#16, true⟩, ⟨0x00F7#16, false⟩])) ∧
    answer (.textToSlots (chars [0x31, 0x2E, 0x32])) =
      some (.ok (.slots [⟨Config.segMapOpen 0x31, true⟩, ⟨Config.segMapOpen 0x32, false⟩])) :=
  ⟨by decide, rfl⟩

/-- T7, T16, T17, T19, T20. -/
theorem test_textToSlots_periods_and_errors :
    answer (.textToSlots (chars [0x2E, 0x2E, 0x30])) = some (.ok (.slots [⟨0x0C3F#16, false⟩])) ∧
    answer (.textToSlots (chars [0x30, 0x2E, 0x30, 0x2E, 0x30, 0x2E, 0x30, 0x2E, 0x30])) =
      some (.error (.textTooLong 8)) ∧
    answer (.textToSlots (chars [0x30, 0x30, 0x30, 0x30, 0x7F])) = some (.error (.textTooLong 4)) ∧
    answer (.textToSlots (chars [0x30, 0xE9])) = some (.error (.unsupportedCharacter 0xE9#32 1)) ∧
    answer (.textToSlots (chars [0x41, 0xB7])) = some (.error (.unsupportedCharacter 0xB7#32 1)) := by
  decide

/-! ### ENCODE_TEXT -/

/-- X6 and X11. -/
theorem test_encodeText_frames :
    answer (.encodeText (chars [0x41, 0x30, 0x20, 0x41])) =
      some (.ok (.frame #v[0x00, 0xF7, 0x00, 0x3F, 0x0C, 0x00, 0x00, 0xF7, 0x00])) ∧
    answer (.encodeText (chars [0x30, 0x30, 0x30, 0x30, 0x2E])) =
      some (.ok (.frame #v[0x00, 0x3F, 0x0C, 0x3F, 0x0C, 0x3F, 0x0C, 0x7F, 0x0C])) := by decide

/-- X4 with `DP_BYTE_OFFSET = 2`, through the step; and, worked out from R124, `DP_BIT = 7`. -/
theorem test_encodeText_other_parameters :
    answerWith { Config.params with dpByteOffset := .two } (.encodeText (chars [0x30, 0x2E])) =
      .inl (some (.ok (.frame #v[0x00, 0x3F, 0x4C, 0, 0, 0, 0, 0, 0]))) ∧
    answerWith { Config.params with dpBit := 7 } (.encodeText (chars [0x30, 0x2E])) =
      .inl (some (.ok (.frame #v[0x00, 0xBF, 0x0C, 0, 0, 0, 0, 0, 0]))) := by decide

/-- X12 and X13: no frame. -/
theorem test_encodeText_errors :
    answer (.encodeText (chars [0x30, 0x30, 0x30, 0x30, 0x30])) = some (.error (.textTooLong 4)) ∧
    answer (.encodeText (chars [0x30, 0xE9])) = some (.error (.unsupportedCharacter 0xE9#32 1)) := by
  decide

/-! ### The reserved codes -/

/-- Q1, P3's last line, Q2. -/
theorem test_reserved :
    answer .reserved101 = some (.error (.illegalOperation 0b101#3)) ∧
    answer .reserved110 = some (.error (.illegalOperation 0b110#3)) ∧
    answer .reserved111 = some (.error (.illegalOperation 0b111#3)) := by decide

/-! ### The response port -/

/-- P1, response 1: the slot words `0x10C3F`, `0x000F7` (R66). -/
theorem test_response_slot_words :
    Result.slotWords (.slots [⟨0x0C3F#16, true⟩, ⟨0x00F7#16, false⟩]) =
      some [0x10C3F#17, 0x000F7#17] := by decide

/-! ### Request lines (R74, R75) -/

/-- P1, line 2, with its comment. -/
theorem test_readLine_encode :
    readLine (codes "ENCODE  0x0C3F., 0x00F7   ; op=001 n=2") =
      some (some (.encode [.imm 0x0C3F#16 true, .imm 0x00F7#16 false])) := by decide

/-- P1, line 1; P3, line 4; the sentinels of R74; BLANK. -/
theorem test_readLine_forms :
    readLine (codes "TEXT    \"0.A\"        ; op=011") = some (some (.text (chars [0x30, 0x2E, 0x41]))) ∧
    readLine (codes "LOOKUP  U+0141") = some (some (.lookup 0x141#32)) ∧
    readLine (codes "LOOKUP  ' '") = some (some (.lookup 0x20#32)) ∧
    readLine (codes "ENCODE %blank, %allon.") = some (some (.encode [.blank false, .allOn true])) ∧
    readLine (codes "BLANK") = some (some .blank) ∧
    readLine (codes "JUMP 3") = none := by decide

/-- No blank need stand between a mnemonic and its operand (the model's choice, notes/assumptions/10.md). -/
theorem test_readLine_without_blanks :
    readLine (codes "LOOKUP'A'") = some (some (.lookup 0x41#32)) ∧
    readLine (codes "LOOKUPU+0141") = some (some (.lookup 0x141#32)) ∧
    readLine (codes "ENCODE0x0C3F") = some (some (.encode [.imm 0x0C3F#16 false])) ∧
    readLine (codes "TEXT\"0.A\"") = some (some (.text (chars [0x30, 0x2E, 0x41]))) := by decide

/-- A line ends at code `0x0A` alone, and a carriage return is part of it (the model's choice,
notes/assumptions/10.md). -/
theorem test_readProgram_line_ends :
    readProgram (codes "CLEAR\n\nBLANK ; x\n") = some [.clear, .blank] ∧
    readProgram (codes "CLEAR\r\nBLANK") = none ∧
    readProgram (codes "CLEAR ; x\r\nBLANK") = some [.clear, .blank] := by decide

/-- R74: the escapes of a string: a quote, a backslash, and a code in braces (`0x7B`, `0x7D`). -/
theorem test_readLine_escapes :
    readLine (codes "ENCTEXT \"" ++ [0x5C, 0x22, 0x5C, 0x5C, 0x5C, 0x75, 0x7B, 0x45, 0x39, 0x7D, 0x22]) =
      some (some (.encText (chars [0x22, 0x5C, 0xE9]))) := by decide

/-! ### Witnesses: for every statement with hypotheses, a state and operands that meet them -/

/-- The table's edges, for LookupAnswersEntryOrUnsupported. -/
theorem witness_lookup_domain_edges :
    (0x20 ≤ (0x20#32).toNat ∧ (0x20#32).toNat ≤ 0x7E) ∧ (0x20 ≤ (0x7E#32).toNat ∧ (0x7E#32).toNat ≤ 0x7E) ∧
    ¬(0x20 ≤ (0x1F#32).toNat ∧ (0x1F#32).toNat ≤ 0x7E) ∧ ¬(0x20 ≤ (0x7F#32).toNat ∧ (0x7F#32).toNat ≤ 0x7E) := by
  decide

/-- TableDomainIsThePrintableCodes: a character that is none of the 95. -/
theorem witness_no_table_code : ∀ i : Fin 95, (0x7F#32) ≠ BitVec.ofNat 32 (0x20 + i.val) := by decide

/-- WideCodesNeverAliasTableEntries: L11. -/
theorem witness_wide_code :
    (State.reset.tableRead 0x41#32).isSome = true ∧ (0x141#32) ≠ 0x41#32 ∧
    (0x141#32).setWidth 8 = (0x41#32).setWidth 8 := by decide

/-- TableAndSentinelsAreNeverWritten, OperationsChangeOnlyPortsAndWorkingRegisters, FrameByteZeroIsAlwaysZero,
EncodeTextIsScanThenEncode (its first clause, on the empty text): an operation answers. -/
theorem witness_operations_answer :
    (∃ t, exec .clearFrame State.reset = .next t ∧
      t.response = some (.ok (.frame #v[0, 0, 0, 0, 0, 0, 0, 0, 0]))) ∧
    (∃ t, step State.reset = .next t) ∧
    (∃ t, exec (.textToSlots []) State.reset = .next t ∧ t.response = some (.ok (.slots []))) :=
  ⟨⟨_, rfl, rfl⟩, ⟨_, rfl⟩, ⟨_, rfl, rfl⟩⟩

/-- The frame statements at the ends of their ranges: lists of 0, 3, 4 and 5 slots, slots 0 and 3 with no
point, the bytes above an empty and a three-slot list. -/
theorem witness_slot_lists :
    ([] : List Slot).length ≤ 4 ∧ (List.replicate 4 (⟨0xABCD#16, false⟩ : Slot)).length = 4 ∧
    4 < (List.replicate 5 (⟨0xABCD#16, false⟩ : Slot)).length ∧
    (List.replicate 4 (⟨0xABCD#16, false⟩ : Slot))[0].dot = false ∧
    (List.replicate 4 (⟨0xABCD#16, false⟩ : Slot))[3].dot = false ∧
    2 * ([] : List Slot).length < (1 : Fin 9).val ∧
    2 * (List.replicate 3 (⟨0xABCD#16, false⟩ : Slot)).length < (7 : Fin 9).val ∧
    (List.replicate 3 (⟨0xABCD#16, false⟩ : Slot)).length < 4 := by decide

/-- PointIsAbsorbedByASetBit and PointOrsTheDecoratorBitIntoItsByte: bit 6 of the low byte, and of the high
byte for `DP_BYTE_OFFSET = 2`; a state with the source's values. -/
theorem witness_absorbed :
    (ClosedForm.maskByte Config.params.dpByteOffset 0x00F7#16).getLsbD Config.params.dpBit.val = true ∧
    (ClosedForm.maskByte .two 0x4000#16).getLsbD Config.params.dpBit.val = true ∧
    (0x00F7#16).getLsbD 6 = true ∧
    (ClosedForm.maskByte State.reset.params.dpByteOffset 0x00F7#16).getLsbD State.reset.params.dpBit.val = true ∧
    State.reset.params.dpByteOffset = .one ∧ State.reset.params.dpBit = 6 := by decide

/-- A state in the middle of a scan, for the statements of one character. -/
def midScan (k : Fin 5) (slot : Vector (Option Slot) 4) (j : Nat) : State :=
  { State.reset with k := some k, slot := slot, j := some j }

/-- LeadingPeriodIsDropped, PeriodAttachesToTheLastSlot (slots 0 and 3), EmptySlotReadFaults. -/
theorem witness_scan_periods :
    (midScan 0 emptySlots 2).k = some 0 ∧
    ((midScan 1 #v[some ⟨5, false⟩, none, none, none] 1).k = some (0 : Fin 4).succ ∧
      (midScan 1 #v[some ⟨5, false⟩, none, none, none] 1).slot[(0 : Fin 4)] = some ⟨5, false⟩) ∧
    ((midScan 4 #v[some ⟨5, false⟩, some ⟨6, false⟩, some ⟨7, true⟩, some ⟨8, true⟩] 9).k = some (3 : Fin 4).succ ∧
      (midScan 4 #v[some ⟨5, false⟩, some ⟨6, false⟩, some ⟨7, true⟩, some ⟨8, true⟩] 9).slot[(3 : Fin 4)] =
        some ⟨8, true⟩) ∧
    (midScan 0 emptySlots 2).slot[(3 : Fin 4)] = none := by decide

/-- CharacterConsumesTheNextSlot and UnsupportedConsumerRaises (slots 0 and 3), FifthConsumerRaisesTextTooLong
(a supported and an unsupported character, and slot 3 with a value for the period). -/
theorem witness_scan_consumers :
    (midScan 0 emptySlots 0).k = some (0 : Fin 4).castSucc ∧ (midScan 3 emptySlots 7).k = some (3 : Fin 4).castSucc ∧
    (midScan 3 emptySlots 7).j = some 7 ∧ (0x41#32) ≠ 0x2E#32 ∧
    (midScan 3 emptySlots 7).tableRead 0x41#32 = some 0x00F7#16 ∧
    (midScan 3 emptySlots 7).tableRead 0x7F#32 = none ∧
    (midScan 4 #v[none, none, none, some ⟨8, true⟩] 4).k = some 4 ∧
    (midScan 4 #v[none, none, none, some ⟨8, true⟩] 4).slot[3] = some ⟨8, true⟩ := by decide

/-- ScanRegistersCountTheText: a scan that meets no error. -/
theorem witness_scan_ends :
    ∃ t, scan (chars [0x30, 0x2E, 0x41]) State.reset.startScan = .ok t := ⟨_, rfl⟩

/-- SlotsAreTheConsumersInOrder, EncodeTextIsScanThenEncode: a text that gives slots. -/
theorem witness_text_gives_slots :
    ∃ t, exec (.textToSlots (chars [0x30, 0x2E])) State.reset = .next t ∧
      t.response = some (.ok (.slots [⟨0x0C3F#16, true⟩])) := ⟨_, rfl, rfl⟩

/-- FirstErrorEndsTheScan, EncodeTextIsScanThenEncode, and the text errors
of EachErrorHasItsOperationAndCause: texts that fail. -/
theorem witness_text_fails :
    exec (.textToSlots (chars [0x7F])) State.reset =
      .next (answered (.error (.unsupportedCharacter 0x7F#32 0)) State.reset) ∧
    ∃ t, exec (.textToSlots (chars [0x30, 0x30, 0x30, 0x30, 0x30])) State.reset = .next t ∧
      t.response = some (.error (.textTooLong 4)) := ⟨rfl, _, rfl, rfl⟩

/-- EachErrorHasItsOperationAndCause: the other errors. -/
theorem witness_other_errors :
    (∃ t, exec (.lookup 0x7F#32) State.reset = .next t ∧
      t.response = some (.error (.unsupportedCharacter 0x7F#32 0))) ∧
    (∃ t, exec (.encodeSlots (List.replicate 5 ⟨0, false⟩)) State.reset = .next t ∧
      t.response = some (.error (.tooManySlots 5))) ∧
    (∃ t, exec .reserved110 State.reset = .next t ∧
      t.response = some (.error (.illegalOperation 0b110#3))) :=
  ⟨⟨_, rfl, rfl⟩, ⟨_, rfl, rfl⟩, ⟨_, rfl, rfl⟩⟩

/-- PeriodEntryAffectsLookupAlone: an operation that is no LOOKUP. -/
theorem witness_no_lookup : ∀ c, Instr.textToSlots [] ≠ .lookup c := by intro c h; cases h

/-- ResponseDependsOnRequestAndConstantsOnly: two states with one table and the same parameters that differ
elsewhere. -/
theorem witness_same_constants :
    State.reset.segMap = (midScan 2 emptySlots 5).segMap ∧ State.reset.params = (midScan 2 emptySlots 5).params ∧
    State.reset.k ≠ (midScan 2 emptySlots 5).k :=
  ⟨rfl, rfl, by decide⟩

/-- EncodeOfDecodeIsTheRequest. -/
theorem witness_decodes : decode ⟨0b100#3, none, none, some []⟩ = .ok (.encodeText []) ∧
    (Instr.encodeText []).op.toNat ≤ 4 := by decide

/-- SentinelOperandsEncodeTheirMasks. -/
theorem witness_constants : Constants State.reset := ⟨rfl, rfl, rfl⟩

/-- A state with a request on the port and a response that may pend. -/
def atPort (q : RawRequest) (r : Option Response) : State :=
  { State.reset with request := some q, response := r }

/-- StepRunsTheDecodedRequest, IllegalOperationIsRaisedForReservedCodesOnly (code 5 and code 4),
SecondRequestIsRefused. -/
theorem witness_ports :
    (atPort (encode .clearFrame) none).response = none ∧
    decode (encode .clearFrame) = .ok .clearFrame ∧
    Instr.wellFormed (atPort (encode .clearFrame) none).params .clearFrame = true ∧
    5 ≤ (RawRequest.bare 0b101#3).op.toNat ∧ ¬5 ≤ (RawRequest.bare 0b100#3).op.toNat ∧
    (atPort (encode .clearFrame) (some (.ok (.mask 0)))).response = some (.ok (.mask 0)) := by decide

/-- OnlyRequestsOutsideTheBoundsAreRefused: an instruction that neither bound concerns; a request on the
port outside the state's bound, which `test_step_refuses_outside_the_bounds` sees refused. -/
theorem witness_outside :
    ({ resetWith { Config.params with charWidth := 8 } with request := some (encode (.lookup 0x141#32)) } : State).response = none ∧
    decode (encode (.lookup 0x141#32)) = .ok (.lookup 0x141#32) ∧
    Instr.wellFormed (resetWith { Config.params with charWidth := 8 }).params (.lookup 0x141#32) = false ∧
    Instr.clearFrame.op ≠ 0b000#3 ∧ Instr.clearFrame.op ≠ 0b011#3 ∧ Instr.clearFrame.op ≠ 0b100#3 := by decide

/-- WrongOperandIsRefused: CLEAR_FRAME with a character. -/
theorem witness_wrong_operand :
    ∀ i, ({ RawRequest.bare 0b010#3 with ch := some 0x41#32 } : RawRequest) ≠ encode i := by
  intro i h; cases i <;> simp [encode, RawRequest.bare, Instr.op] at h

/-- CallerMovesBetweenOperations: each of the three scripts, with no request in progress. -/
theorem witness_scripts :
    State.reset.request = none ∧ State.reset.script = [] ∧
    ({ State.reset with script := [.present (encode .clearFrame)] } : State).request = none ∧
    ({ State.reset with script := [.takeResponse], response := some (.ok (.mask 0)) } : State).script =
      .takeResponse :: [] := ⟨rfl, rfl, rfl, rfl⟩

/-- EveryStepKeepsTheInvariant and RequestsAreAnsweredInOrder: a state with a request yet to be presented
meets what they ask, and it steps. -/
theorem witness_invariant_and_rest :
    Inv { State.reset with script := [.present (encode .clearFrame)] } ∧
    (∃ t, step { State.reset with script := [.present (encode .clearFrame)] } = .next t) ∧
    Resting { State.reset with script := [.present (encode .clearFrame)] } ∧
    State.reset.request = none ∧ State.reset.response = none ∧
    ∀ i ∈ [Instr.clearFrame], i.wellFormed State.reset.params = true :=
  ⟨⟨⟨rfl, rfl, rfl⟩, ⟨rfl, rfl, rfl, rfl⟩, by simp [State.reset], by simp [State.reset]⟩,
    ⟨_, rfl⟩, ⟨rfl, rfl, rfl, rfl⟩, rfl, rfl, by decide⟩

end Sys2Proof.Tests
end

section
/-! PROOFS. What outlives an operation (R20): every operation ends in `answered`, and neither an operation
nor a move of the caller writes the table or the sentinels. -/

namespace Sys2Proof.Machine

/-- Every operation answers, and the state it leaves is the one it began in with its response pending and
its working registers released. -/
theorem exec_answers (i : Instr) (s : State) : ∃ r, exec i s = .next (answered r s) := by
  cases i with
  | lookup ch => exact ⟨_, execLookup_eq ch s⟩
  | encodeSlots slots => exact ⟨_, execEncodeSlots_eq slots s⟩
  | clearFrame => exact ⟨_, execClearFrame_eq s⟩
  | textToSlots text => exact ⟨_, execTextToSlots_eq text s⟩
  | encodeText text => exact ⟨_, execEncodeText_eq text s⟩
  | reserved101 => exact ⟨_, raise_eq (.illegalOperation 0b101#3) s⟩
  | reserved110 => exact ⟨_, raise_eq (.illegalOperation 0b110#3) s⟩
  | reserved111 => exact ⟨_, raise_eq (.illegalOperation 0b111#3) s⟩

theorem eq_answered_of_exec {i : Instr} {s t : State} (h : exec i s = .next t) :
    ∃ r, t = answered r s := by
  obtain ⟨r, hr⟩ := exec_answers i s
  exact ⟨r, Host.Outcome.next.inj (h.symm.trans hr)⟩

/-- The caller's move writes its own script and record and the two ports, so no constant of SMFE. -/
theorem callerMove_keeps_constants (s : State) :
    (callerMove s).params = s.params ∧ (callerMove s).segMap = s.segMap ∧
    (callerMove s).maskBlank = s.maskBlank ∧ (callerMove s).maskAllOn = s.maskAllOn := by
  obtain ⟨-, hm⟩ | ⟨r, rest, -, hm⟩ | ⟨rest, -, hm⟩ := callerMove_cases s <;>
    rw [hm] <;> exact ⟨rfl, rfl, rfl, rfl⟩

/-- No step, of SMFE or of the caller, writes the parameters, the table or the sentinels (R10, R20). -/
theorem step_keeps_constants {s t : State} (h : step s = .next t) :
    t.params = s.params ∧ t.segMap = s.segMap ∧ t.maskBlank = s.maskBlank ∧
    t.maskAllOn = s.maskAllOn := by
  obtain ⟨-, rfl⟩ | ⟨q, i, -, -, -, -, hexec⟩ := step_cases h
  · exact callerMove_keeps_constants s
  · obtain ⟨r, rfl⟩ := eq_answered_of_exec hexec
    exact ⟨rfl, rfl, rfl, rfl⟩

theorem emptySlots_getElem : ∀ x : Fin 4, emptySlots[x] = none := by decide

/-- Settles O7: an operation ends in `answered`, which holds the constants of the state it began in and no
working register; any step keeps the constants. -/
theorem tableAndSentinelsAreNeverWritten : Obligations.TableAndSentinelsAreNeverWritten := by
  refine ⟨fun i s t h => ?_, fun s t h => (step_keeps_constants h).2⟩
  obtain ⟨r, rfl⟩ := eq_answered_of_exec h
  exact ⟨rfl, rfl, rfl, rfl, emptySlots_getElem, rfl, rfl⟩

end Sys2Proof.Machine
end

section
/-! PROOFS. Where a slot's mask stands in the frame (R43, R123, R124): packing slot `i` sets the two bytes
of slot `i` and no other, so folded over slots of distinct index each byte is the one its own slot sets. -/

namespace Sys2Proof.Machine

open Sys2Proof.ClosedForm

/-! ### The bytes of one slot -/

theorem slotByte_inj {i j : Fin 4} {d e : DpByteOffset} :
    slotByte i d = slotByte j e ↔ i = j ∧ d = e := by
  cases d <;> cases e <;> simp [slotByte, offsetOf, Fin.ext_iff] <;> omega

/-- `Vector.getElem_set` at indices of the frame, the form the encoder writes in. -/
theorem frame_getElem_set (f : Frame) (x y : Fin 9) (b : Byte) :
    (f.set x b)[y] = if x = y then b else f[y] := by
  simp only [Fin.getElem_fin, Vector.getElem_set, Fin.ext_iff]

/-- Its low byte written at offset 1 and its high byte at offset 2, a mask stands in its slot (R123). -/
theorem setMask_getElem (f : Frame) (i : Fin 4) (m : Mask) (d : DpByteOffset) :
    ((f.set (slotByte i .one) (lowByte m)).set (slotByte i .two) (highByte m))[slotByte i d] =
      maskByte d m := by
  cases d <;> simp [frame_getElem_set, slotByte_inj, maskByte, -Fin.getElem_fin]

theorem packed_getElem_same (p : Params) (f : Frame) (i : Fin 4) (v : Slot) (d : DpByteOffset) :
    (packed p f i v)[slotByte i d] = maskByte d v.mask ||| pointIn p v.dot d := by
  unfold packed pointIn
  cases v.dot with
  | false => simp [setMask_getElem, -Fin.getElem_fin]
  | true =>
    by_cases h : p.dpByteOffset = d
    · subst h
      simp [frame_getElem_set _ _ _ (_ ||| _), setMask_getElem, -Fin.getElem_fin]
    · simp [frame_getElem_set _ _ _ (_ ||| _), slotByte_inj, setMask_getElem, h, -Fin.getElem_fin]

theorem packed_getElem_of_ne (p : Params) (f : Frame) {i : Fin 4} (v : Slot) {x : Fin 9}
    (h : ∀ d, slotByte i d ≠ x) : (packed p f i v)[x] = f[x] := by
  unfold packed
  split <;> simp only [frame_getElem_set, h, if_false]

/-! ### The bytes of a packed list -/

theorem foldl_packed_getElem_of_not_mem (p : Params) (l : List (Fin 4 × Slot)) (f : Frame) {x : Fin 9}
    (h : ∀ iv ∈ l, ∀ d, slotByte iv.1 d ≠ x) :
    (l.foldl (fun f iv => packed p f iv.1 iv.2) f)[x] = f[x] := by
  induction l generalizing f with
  | nil => rfl
  | cons iv rest ih =>
    obtain ⟨hiv, hrest⟩ := List.forall_mem_cons.mp h
    rw [List.foldl_cons, ih _ hrest, packed_getElem_of_ne p f iv.2 hiv]

theorem foldl_packed_getElem_of_mem (p : Params) {l : List (Fin 4 × Slot)} (f : Frame) {i : Fin 4}
    {v : Slot} (d : DpByteOffset) (hl : l.Pairwise fun a b => a.1 ≠ b.1) (h : (i, v) ∈ l) :
    (l.foldl (fun f iv => packed p f iv.1 iv.2) f)[slotByte i d] =
      maskByte d v.mask ||| pointIn p v.dot d := by
  induction l generalizing f with
  | nil => cases h
  | cons iv rest ih =>
    obtain ⟨hiv, hrest⟩ := List.pairwise_cons.mp hl
    rw [List.foldl_cons]
    obtain rfl | h := List.mem_cons.mp h
    · have later : ∀ jw ∈ rest, ∀ e, slotByte jw.1 e ≠ slotByte i d := fun jw hjw e he =>
        hiv jw hjw (slotByte_inj.mp he).1.symm
      rw [foldl_packed_getElem_of_not_mem p rest _ later, packed_getElem_same]
    · exact ih _ hrest h

/-- The encoder packs each slot under an index of its own; `List.finRange 4` is its `[0, 1, 2, 3]`. -/
theorem zip_indices_pairwise_ne (l : List Slot) :
    (List.zip (List.finRange 4) l).Pairwise fun a b => a.1 ≠ b.1 := by
  rw [List.pairwise_iff_getElem]
  intro i j _ _ hij
  simp [hij.ne]

/-- The index a slot is packed under is its place in the list. -/
theorem mem_zip_indices {l : List Slot} {i : Nat} (hi : i < l.length) (h4 : i < 4) :
    ((⟨i, h4⟩ : Fin 4), l[i]) ∈ List.zip (List.finRange 4) l := by
  refine List.mem_of_getElem (i := i) (h := by simpa using ⟨h4, hi⟩) ?_
  simp

/-- The bytes of a listed slot in the encoder's frame: its own mask's, with its point (R123, R124). -/
theorem packedFrame_getElem_slotByte (p : Params) {l : List Slot} {i : Nat} (hi : i < l.length)
    (h4 : i < 4) (d : DpByteOffset) :
    (packedFrame p l)[slotByte ⟨i, h4⟩ d] = maskByte d l[i].mask ||| pointIn p l[i].dot d :=
  foldl_packed_getElem_of_mem p _ d (zip_indices_pairwise_ne l) (mem_zip_indices hi h4)

theorem exec_encodeSlots_ok {l : List Slot} (s : State) (hl : l.length ≤ 4) :
    exec (.encodeSlots l) s = .next (answered (.ok (.frame (packedFrame s.params l))) s) :=
  (execEncodeSlots_eq l s).trans (by rw [if_pos hl])

/-- Settles O13: the frame is the packed one, and its bytes at offsets 1 and 2 of slot `i` are the two
bytes of the mask of `l[i]`, each with what the point adds there. -/
theorem maskBytesStandLowThenHigh : Obligations.MaskBytesStandLowThenHigh := by
  intro l s i hl hi
  have h4 : i < 4 := by omega
  exact ⟨packedFrame s.params l, exec_encodeSlots_ok s hl,
    packedFrame_getElem_slotByte s.params hi h4 .one, packedFrame_getElem_slotByte s.params hi h4 .two⟩

end Sys2Proof.Machine
end

section
/-! PROOFS. The segment map (40_segment_map.md): the table of the reset state is the listed entries (R103,
R105), and LOOKUP answers with what the table gives (R100). -/

namespace Sys2Proof.Machine

theorem segMap_getElem {i : Nat} (h : i < 95) :
    Config.segMap[i] = Config.segMapEntry (0x20 + i) := by
  simp [Config.segMap]

/-- Within its domain the table of the reset state gives each character the entry of its code (R105). -/
theorem reset_tableRead {c : Ch} (h : 0x20 ≤ c.toNat ∧ c.toNat ≤ 0x7E) :
    State.reset.tableRead c = some (Config.segMapEntry c.toNat) := by
  have hcode : 0x20 + (c.toNat - 0x20) = c.toNat := by omega
  calc State.reset.tableRead c
      = some (Config.segMap[c.toNat - 0x20]'(by omega)) := tableRead_supported State.reset c h
    _ = some (Config.segMapEntry c.toNat) := by rw [segMap_getElem, hcode]

/-- Settles O1: the three codes are in the table's domain, and their entries are the fixed ones. -/
theorem resetTableHoldsFixedEntries : Obligations.ResetTableHoldsFixedEntries :=
  ⟨reset_tableRead (by decide), reset_tableRead (by decide), reset_tableRead (by decide)⟩

theorem exec_lookup_of_some {s : State} {c : Ch} {m : Mask} (h : s.tableRead c = some m) :
    exec (.lookup c) s = .next (answered (.ok (.mask m)) s) :=
  (execLookup_eq c s).trans (by rw [h])

theorem exec_lookup_of_none {s : State} {c : Ch} (h : s.tableRead c = none) :
    exec (.lookup c) s = .next (answered (.error (.unsupportedCharacter c 0)) s) :=
  (execLookup_eq c s).trans (by rw [h])

/-- Settles O4: within the domain the table gives the character's entry, outside it none, and LOOKUP
answers accordingly. -/
theorem lookupAnswersEntryOrUnsupported : Obligations.LookupAnswersEntryOrUnsupported :=
  fun s c => ⟨fun h => exec_lookup_of_some (tableRead_supported s c h),
    fun h => exec_lookup_of_none (tableRead_unsupported s c h)⟩

end Sys2Proof.Machine
end

section
/-! PROOFS. The encoder's frame byte by byte (41_frame_encoder.md). A frame is byte 0 and two bytes for each
slot; in the packed frame byte 0 is zero (R122) and the bytes of slot `i` are given by the list's entry at
`i` alone, zero where there is none (R125). So the packed frame is the closed form of R130, and what a
change to the list does to the frame is read off its entries. -/

namespace Sys2Proof.Machine

open Sys2Proof.ClosedForm

/-! ### The indices of a frame -/

theorem slotByte_ne_zero (i : Fin 4) (d : DpByteOffset) : slotByte i d ≠ 0 := by
  intro h
  have hval : 2 * i.val + offsetOf d = 0 := congrArg Fin.val h
  cases d <;> simp [offsetOf] at hval

theorem lt_slotByte_iff (n : Nat) (i : Fin 4) (d : DpByteOffset) :
    2 * n < (slotByte i d).val ↔ n ≤ i.val := by
  cases d <;> simp only [slotByte, offsetOf] <;> omega

/-- Every byte of a frame but byte 0 belongs to a slot (R43). -/
theorem eq_zero_or_eq_slotByte (x : Fin 9) : x = 0 ∨ ∃ i d, x = slotByte i d := by
  by_cases h0 : x.val = 0
  · exact .inl (Fin.ext h0)
  · obtain hodd | heven : x.val % 2 = 1 ∨ x.val % 2 = 0 := by omega
    · refine .inr ⟨⟨(x.val - 1) / 2, by omega⟩, .one, Fin.ext ?_⟩
      simp only [slotByte, offsetOf]; omega
    · refine .inr ⟨⟨(x.val - 1) / 2, by omega⟩, .two, Fin.ext ?_⟩
      simp only [slotByte, offsetOf]; omega

/-- Two frames are equal when byte 0 and the bytes of each slot are. -/
theorem frame_ext {f g : Frame} (h0 : f[(0 : Fin 9)] = g[(0 : Fin 9)])
    (h : ∀ i d, f[slotByte i d] = g[slotByte i d]) : f = g := by
  ext x hx : 1
  obtain hz | ⟨i, d, hs⟩ := eq_zero_or_eq_slotByte ⟨x, hx⟩
  · obtain rfl : x = 0 := congrArg Fin.val hz
    exact h0
  · obtain rfl : x = (slotByte i d).val := congrArg Fin.val hs
    exact h i d

/-! ### The bytes of the packed frame -/

/-- What an entry of the slot list puts at offset `d` of its slot: its mask's byte with its point, and
nothing where the list has no such entry (R123 to R125). -/
def entryByte (p : Params) (d : DpByteOffset) : Option Slot → Byte
  | none => 0x00#8
  | some v => maskByte d v.mask ||| pointIn p v.dot d

/-- A slot is packed under a place the list has. -/
theorem lt_length_of_mem_zip {l : List Slot} {iv : Fin 4 × Slot}
    (h : iv ∈ List.zip (List.finRange 4) l) : iv.1.val < l.length := by
  obtain ⟨n, hn, rfl⟩ := List.mem_iff_getElem.mp h
  rw [List.length_zip] at hn
  simp
  omega

/-- A byte of no listed slot is the zero it started as (R125). -/
theorem packedFrame_getElem_of_unlisted (p : Params) {l : List Slot} {x : Fin 9}
    (h : ∀ (i : Fin 4) d, i.val < l.length → slotByte i d ≠ x) : (packedFrame p l)[x] = 0x00#8 := by
  have start := foldl_packed_getElem_of_not_mem p (List.zip (List.finRange 4) l)
    (Vector.replicate 9 0x00#8) (x := x) fun iv hiv d => h iv.1 d (lt_length_of_mem_zip hiv)
  exact start.trans (Vector.getElem_replicate x.isLt)

theorem packedFrame_getElem_zero (p : Params) (l : List Slot) :
    (packedFrame p l)[(0 : Fin 9)] = 0x00#8 :=
  packedFrame_getElem_of_unlisted p fun i d _ => slotByte_ne_zero i d

theorem packedFrame_getElem_slotByte_eq (p : Params) (l : List Slot) (i : Fin 4) (d : DpByteOffset) :
    (packedFrame p l)[slotByte i d] = entryByte p d l[i.val]? := by
  by_cases hi : i.val < l.length
  · rw [List.getElem?_eq_getElem hi]
    exact packedFrame_getElem_slotByte p hi i.isLt d
  · rw [List.getElem?_eq_none (Nat.le_of_not_lt hi)]
    refine packedFrame_getElem_of_unlisted p fun j e hj hje => hi ?_
    rwa [← (slotByte_inj.mp hje).1]

/-! ### The closed form (R130) -/

theorem closedForm_frame_getElem (p : Params) (l : List Slot) (x : Fin 9) :
    (ClosedForm.frame p l)[x] = frameByte p l x := by
  fin_cases x <;> rfl

theorem frameByte_slotByte (p : Params) (l : List Slot) (i : Fin 4) (d : DpByteOffset) :
    frameByte p l (slotByte i d) = entryByte p d l[i.val]? := by
  have h0 : (slotByte i d).val ≠ 0 := fun h => slotByte_ne_zero i d (Fin.ext h)
  have hdiv : ((slotByte i d).val - 1) / 2 = i.val := by
    cases d <;> simp only [slotByte, offsetOf] <;> omega
  have hmod : (slotByte i d).val % 2 = 1 ↔ d = .one := by
    cases d <;> simp [slotByte, offsetOf]
  simp only [frameByte, h0, hdiv, hmod, if_false]
  cases l[i.val]? with
  | none => rfl
  | some v => cases d <;> rfl

/-- The frame the encoder's loop packs is the spec's closed form (R130), of any slot list. -/
theorem packedFrame_eq_closedForm (p : Params) (l : List Slot) :
    packedFrame p l = ClosedForm.frame p l := by
  refine frame_ext (packedFrame_getElem_zero p l) fun i d => ?_
  rw [packedFrame_getElem_slotByte_eq, closedForm_frame_getElem, frameByte_slotByte]

/-! ### What a change to the list does to the packed frame -/

/-- The point of slot `i`, where it had none, is ORed into the one byte the parameters name (R124). -/
theorem packedFrame_set_withPoint (p : Params) {l : List Slot} {i : Nat} (hi : i < l.length)
    (h4 : i < 4) (hdot : l[i].dot = false) :
    packedFrame p (l.set i (withPoint l[i])) =
      (packedFrame p l).set (slotByte ⟨i, h4⟩ p.dpByteOffset)
        ((packedFrame p l)[slotByte ⟨i, h4⟩ p.dpByteOffset] ||| pointBit p) := by
  refine frame_ext ?_ fun j d => ?_
  · rw [frame_getElem_set, if_neg (slotByte_ne_zero _ _), packedFrame_getElem_zero,
      packedFrame_getElem_zero]
  · simp only [frame_getElem_set, slotByte_inj, packedFrame_getElem_slotByte_eq]
    by_cases hj : i = j.val
    · subst hj
      have hset : (l.set j.val (withPoint l[j.val]))[j.val]? = some (withPoint l[j.val]) :=
        List.getElem?_set_self hi
      rw [hset, List.getElem?_eq_getElem hi]
      by_cases hd : p.dpByteOffset = d <;> simp [entryByte, withPoint, pointIn, hdot, hd]
    · have hne : ¬((⟨i, h4⟩ : Fin 4) = j ∧ p.dpByteOffset = d) := fun h => hj (congrArg Fin.val h.1)
      rw [List.getElem?_set_ne hj, if_neg hne]

theorem entryByte_blank (p : Params) (d : DpByteOffset) :
    entryByte p d (some { mask := 0x0000#16, dot := false }) = 0x00#8 := by
  cases d <;> simp [entryByte, pointIn, maskByte, lowByte, highByte]

/-- A blank slot without point at the end of the list is not seen in the frame (R125). -/
theorem packedFrame_append_blank (p : Params) (l : List Slot) :
    packedFrame p (l ++ [{ mask := 0x0000#16, dot := false }]) = packedFrame p l := by
  refine frame_ext ?_ fun i d => ?_
  · rw [packedFrame_getElem_zero, packedFrame_getElem_zero]
  · rw [packedFrame_getElem_slotByte_eq, packedFrame_getElem_slotByte_eq]
    obtain hlt | heq | hgt := Nat.lt_trichotomy i.val l.length
    · rw [List.getElem?_append_left hlt]
    · rw [heq, List.getElem?_concat_length, List.getElem?_eq_none le_rfl]
      exact entryByte_blank p d
    · rw [List.getElem?_eq_none (by simp; omega), List.getElem?_eq_none hgt.le]

end Sys2Proof.Machine
end

section
/-! PROOFS. What ENCODE_SLOTS and CLEAR_FRAME answer (R120 to R128), and the frames of every operation. -/

namespace Sys2Proof.Machine

theorem exec_encodeSlots_tooMany {l : List Slot} (s : State) (hl : 4 < l.length) :
    exec (.encodeSlots l) s = .next (answered (.error (.tooManySlots l.length)) s) :=
  (execEncodeSlots_eq l s).trans (by rw [if_neg (Nat.not_le.mpr hl)])

/-- Settles O10: with at most 4 slots the answer is the packed frame, which is the closed form's; with more
it is the error. -/
theorem encodeSlotsAnswersFrameOrTooMany : Obligations.EncodeSlotsAnswersFrameOrTooMany := by
  refine fun l s => ⟨fun hl => ?_, exec_encodeSlots_tooMany s⟩
  rw [← packedFrame_eq_closedForm]
  exact exec_encodeSlots_ok s hl

/-- Settles O11: the encoder's first test rejects a fifth slot, and it admits exactly 4. -/
theorem fiveSlotsFailBeforeAnyWrite : Obligations.FiveSlotsFailBeforeAnyWrite := fun p _ s =>
  ⟨fun hl => ⟨encodeFrame_tooMany p s hl, exec_encodeSlots_tooMany s hl⟩,
    fun hl => ⟨_, exec_encodeSlots_ok s hl.le⟩⟩

/-- Every frame an operation answers with is one the encoder packed; CLEAR_FRAME's is that of the empty
list (R128). -/
theorem eq_packedFrame_of_exec {i : Instr} {s t : State} {f : Frame} (h : exec i s = .next t)
    (hf : t.response = some (.ok (.frame f))) : ∃ l, f = packedFrame s.params l := by
  have frame_of_answer {r : Response} (hr : exec i s = .next (answered r s)) : r = .ok (.frame f) := by
    obtain rfl := Host.Outcome.next.inj (hr.symm.trans h)
    exact Option.some.inj hf
  cases i with
  | lookup c =>
    have hr := frame_of_answer (execLookup_eq c s)
    split at hr <;> cases hr
  | encodeSlots l =>
    have hr := frame_of_answer (execEncodeSlots_eq l s)
    split at hr
    · cases hr; exact ⟨l, rfl⟩
    · cases hr
  | clearFrame => cases frame_of_answer (execClearFrame_eq s); exact ⟨[], rfl⟩
  | textToSlots text =>
    have hr := frame_of_answer (execTextToSlots_eq text s)
    split at hr <;> cases hr
  | encodeText text =>
    have hr := frame_of_answer (execEncodeText_eq text s)
    split at hr
    · next l _ => cases hr; exact ⟨l, rfl⟩
    · cases hr
  | reserved101 => cases frame_of_answer (raise_eq (.illegalOperation 0b101#3) s)
  | reserved110 => cases frame_of_answer (raise_eq (.illegalOperation 0b110#3) s)
  | reserved111 => cases frame_of_answer (raise_eq (.illegalOperation 0b111#3) s)

/-- Settles O12: every frame answered is a packed one, and no slot is packed into byte 0. -/
theorem frameByteZeroIsAlwaysZero : Obligations.FrameByteZeroIsAlwaysZero := by
  refine ⟨State.zeroFrame_frame, fun i s t f h hf => ?_⟩
  obtain ⟨l, rfl⟩ := eq_packedFrame_of_exec h hf
  exact packedFrame_getElem_zero s.params l

/-- ENCODE_SLOTS of a list in which slot `i` is given a point it had not: its frame is that of the list
with the decorator bit ORed into one byte (R124). -/
theorem exec_encodeSlots_set_withPoint {l : List Slot} (s : State) {i : Nat} (hl : l.length ≤ 4)
    (hi : i < l.length) (h4 : i < 4) (hdot : l[i].dot = false) :
    exec (.encodeSlots (l.set i (withPoint l[i]))) s =
      .next (answered (.ok (.frame ((packedFrame s.params l).set
        (slotByte ⟨i, h4⟩ s.params.dpByteOffset)
        ((packedFrame s.params l)[slotByte ⟨i, h4⟩ s.params.dpByteOffset] |||
          pointBit s.params)))) s) := by
  rw [← packedFrame_set_withPoint s.params hi h4 hdot]
  exact exec_encodeSlots_ok s (by rwa [List.length_set])

/-- Settles O14: the frame with the point is the frame without it, the decorator bit ORed into the byte of
the slot the parameters name; at the source's values that byte is `2i + 1` and the bit is `0x40`. -/
theorem pointOrsTheDecoratorBitIntoItsByte : Obligations.PointOrsTheDecoratorBitIntoItsByte := by
  constructor
  · intro p l s i hl hi hdot
    refine ⟨packedFrame p l, encodeFrame_ok p s hl, ?_⟩
    rw [encodeFrame_ok p s (by rwa [List.length_set]),
      packedFrame_set_withPoint p hi (by omega) hdot, pointBit]
  · intro l s i hl hi hdot
    have hpoint := exec_encodeSlots_set_withPoint s hl hi (by omega) hdot
    refine ⟨packedFrame s.params l, exec_encodeSlots_ok s hl, hpoint, fun hoff hbit => ?_⟩
    have hbyte : pointBit s.params = 0x40#8 := by rw [pointBit, hbit]; rfl
    rw [hbyte] at hpoint
    simp only [hoff] at hpoint
    exact hpoint

/-- Settles O15: a byte above `2n` belongs to a slot past the list's end, and a blank slot at the end is not
seen in the frame. -/
theorem unlistedSlotsStayZero : Obligations.UnlistedSlotsStayZero := by
  refine fun l s hl => ⟨packedFrame s.params l, exec_encodeSlots_ok s hl, fun x hx => ?_, fun hlt => ?_⟩
  · refine packedFrame_getElem_of_unlisted s.params fun i d hi hix => ?_
    rw [← hix, lt_slotByte_iff] at hx
    omega
  · rw [← packedFrame_append_blank s.params l]
    exact exec_encodeSlots_ok s (by simpa using hlt)

/-- Settles O17: CLEAR_FRAME answers with the frame as it starts. -/
theorem clearFrameAnswersZeros : Obligations.ClearFrameAnswersZeros := execClearFrame_eq

/-- Settles O18: the empty list packs nothing, so its frame is CLEAR_FRAME's. -/
theorem emptyEncodeEqualsClearFrame : Obligations.EmptyEncodeEqualsClearFrame := fun s =>
  (exec_encodeSlots_ok (l := []) s (Nat.zero_le 4)).trans (execClearFrame_eq s).symm

end Sys2Proof.Machine
end

section
/-! PROOFS. The text-to-slots scan (42_text_to_slots.md): what one character does to the registers (R144,
R145, R147), and the slots TEXT_TO_SLOTS delivers (R149). A period changes points alone and a consumer
appends its entry, so the masks held follow the consumers scanned. -/

namespace Sys2Proof.Machine

/-! ### One character -/

theorem isPeriod_eq_false {c : Ch} (h : c ≠ 0x2E#32) : isPeriod c = false := beq_eq_false_iff_ne.mpr h

/-- A period with a slot consumed attaches to the last one (R144). -/
theorem scanChar_period_of_succ {s : State} {i : Fin 4} {j : Nat} {v : Slot} (hk : s.k = some i.succ)
    (hj : s.j = some j) (hv : s.slot[i] = some v) :
    scanChar 0x2E#32 s = .ok ((s.writeSlot i (withPoint v)).advanceScan j) := by
  have hperiod : isPeriod 0x2E#32 = true := rfl
  have hlast : (⟨i.succ.val - 1, by omega⟩ : Fin 4) = i := rfl
  have hpos : i.succ.val ≠ 0 := Nat.succ_ne_zero i.val
  simp only [scanChar, readK_of_some hk, readJ_of_some hj, bind, Except.bind, hperiod, if_true,
    dif_neg hpos, hlast, attachPoint_of_some hv]
  rfl

/-- With fewer than four slots consumed, what a consumer does is decided by the table (R145, R147). -/
theorem scanChar_consumer_of_castSucc {s : State} {i : Fin 4} {j : Nat} {c : Ch}
    (hk : s.k = some i.castSucc) (hj : s.j = some j) (hc : c ≠ 0x2E#32) :
    scanChar c s = (s.tableRead c).elim (.error (.error (.unsupportedCharacter c j)))
      fun m => .ok ((s.consumeSlot i m).advanceScan j) := by
  have hroom : i.castSucc.val < 4 := i.isLt
  simp only [scanChar, readK_of_some hk, readJ_of_some hj, bind, Except.bind, isPeriod_eq_false hc,
    Bool.false_eq_true, if_false, dif_pos hroom]
  cases s.tableRead c <;> rfl

/-- Settles O20: the slot written back has its mask, and only `j` changes besides. -/
theorem periodAttachesToTheLastSlot : Obligations.PeriodAttachesToTheLastSlot :=
  fun _ _ _ _ hk hj hv => scanChar_period_of_succ hk hj hv

/-- Settles O21: the table has an entry, and consuming it writes the slot, `k` and `j`. -/
theorem characterConsumesTheNextSlot : Obligations.CharacterConsumesTheNextSlot := by
  intro s i j c m hk hj hc hm
  rw [scanChar_consumer_of_castSucc hk hj hc, hm]
  rfl

/-- Settles O23: the table has no entry. -/
theorem unsupportedConsumerRaises : Obligations.UnsupportedConsumerRaises := by
  intro s i j c hk hj hc hm
  rw [scanChar_consumer_of_castSucc hk hj hc, hm]
  rfl

/-! ### The slots of a whole text -/

theorem map_mask_modify_withPoint (l : List Slot) (i : Nat) :
    (l.modify i withPoint).map (fun v => some v.mask) = l.map fun v => some v.mask := by
  induction l generalizing i with
  | nil => rw [List.modify_nil]
  | cons v rest ih =>
    cases i with
    | zero => rfl
    | succ n => simp only [List.modify_succ_cons, List.map_cons, ih n]

/-- One step adds the entry of its character to the masks held, where that is a consumer (R144, R145). -/
theorem scanList_masks {tab : Ch → Option Mask} {c : Ch} {l l' : List Slot} {j : Nat}
    (h : scanList tab c l j = .ok l') :
    l'.map (fun v => some v.mask) =
      l.map (fun v => some v.mask) ++ ([c].filter fun c => !isPeriod c).map tab := by
  unfold scanList at h
  split at h
  · next hc =>
    obtain rfl := Except.ok.inj h
    simp [map_mask_modify_withPoint, hc]
  · next hc =>
    split at h
    · split at h
      · next m hm =>
        obtain rfl := Except.ok.inj h
        simp [consumedSlot, hc, hm]
      · cases h
    · cases h

/-- A scan adds the entries of its text's consumers, in order (R149). -/
theorem scanLists_masks {tab : Ch → Option Mask} {text : Text} {l l' : List Slot} {j : Nat}
    (h : scanLists tab text l j = .ok l') :
    l'.map (fun v => some v.mask) =
      l.map (fun v => some v.mask) ++ (text.filter fun c => !isPeriod c).map tab := by
  induction text generalizing l j with
  | nil => obtain rfl := Except.ok.inj h; simp
  | cons c rest ih =>
    simp only [scanLists] at h
    split at h
    · next l1 h1 =>
      rw [ih h, scanList_masks h1, List.append_assoc, ← List.map_append, ← List.filter_append,
        List.singleton_append]
    · cases h

/-- Periods with no slot consumed are dropped, any number of them (R143). -/
theorem scanLists_replicate_period (tab : Ch → Option Mask) (n j : Nat) :
    scanLists tab (List.replicate n 0x2E#32) [] j = .ok [] := by
  induction n generalizing j with
  | zero => rfl
  | succ n ih => exact ih (j + 1)

theorem exec_textToSlots_of_ok {text : Text} {s : State} {l : List Slot}
    (h : scanLists s.tableRead text [] 0 = .ok l) :
    exec (.textToSlots text) s = .next (answered (.ok (.slots l)) s) :=
  (execTextToSlots_eq text s).trans (by rw [h])

/-- The slots delivered are those the scan ends with. -/
theorem scanLists_of_exec_textToSlots {text : Text} {s t : State} {l : List Slot}
    (h : exec (.textToSlots text) s = .next t) (hr : t.response = some (.ok (.slots l))) :
    scanLists s.tableRead text [] 0 = .ok l := by
  obtain rfl := Host.Outcome.next.inj ((execTextToSlots_eq text s).symm.trans h)
  have hresponse := Option.some.inj hr
  split at hresponse
  · next l' hl => cases hresponse; exact hl
  · cases hresponse

/-- Settles O27: a scan never holds more than 4 slots and their masks are its consumers' entries; periods
alone consume nothing. -/
theorem slotsAreTheConsumersInOrder : Obligations.SlotsAreTheConsumersInOrder := by
  constructor
  · intro text s t l h hr
    have hscan := scanLists_of_exec_textToSlots h hr
    exact ⟨scanLists_length (l := []) (Nat.zero_le 4) hscan, scanLists_masks hscan⟩
  · exact fun n s => exec_textToSlots_of_ok (scanLists_replicate_period s.tableRead n 0)

end Sys2Proof.Machine
end

section
/-! PROOFS. The request record (R61 to R65): a slot and its 17-bit word are each read back from the other, and
so are an instruction and its request, but for the reserved codes, which have more than one request. -/

namespace Sys2Proof.Machine

/-! ### The word of a slot -/

/-- The dot stands above the mask (R64). -/
theorem toWord_getLsbD (v : Slot) (n : Nat) :
    v.toWord.getLsbD n = if n < 16 then v.mask.getLsbD n else (BitVec.ofBool v.dot).getLsbD (n - 16) :=
  BitVec.getLsbD_append

theorem toWord_mask (v : Slot) : v.toWord.extractLsb' 0 16 = v.mask := by
  ext n hn
  rw [BitVec.getElem_extractLsb', Nat.zero_add, toWord_getLsbD, if_pos hn, BitVec.getLsbD_eq_getElem]

theorem toWord_dot (v : Slot) : v.toWord.getLsbD 16 = v.dot := by
  simp [toWord_getLsbD, -BitVec.getLsbD_eq_getElem]

theorem ofWord_toWord (v : Slot) : Slot.ofWord v.toWord = v := by
  simp only [Slot.ofWord, toWord_mask, toWord_dot]

theorem toWord_ofWord (w : SlotWord) : (Slot.ofWord w).toWord = w := by
  refine BitVec.eq_of_getLsbD_eq fun n hn => ?_
  obtain hlow | rfl : n < 16 ∨ n = 16 := by omega
  · rw [toWord_getLsbD, if_pos hlow, Slot.ofWord, BitVec.getLsbD_extractLsb', Nat.zero_add,
      decide_eq_true hlow, Bool.true_and]
  · exact toWord_dot (Slot.ofWord w)

theorem map_ofWord_map_toWord (l : List Slot) : (l.map Slot.toWord).map Slot.ofWord = l := by
  simp [ofWord_toWord, Function.comp_def]

theorem map_toWord_map_ofWord (l : List SlotWord) : (l.map Slot.ofWord).map Slot.toWord = l := by
  simp [toWord_ofWord, Function.comp_def]

/-- Settles O44: the mask lies below the point, so each is read back, and a word is put together again from
the two. -/
theorem slotWordHoldsMaskAndPoint : Obligations.SlotWordHoldsMaskAndPoint :=
  ⟨fun v => ⟨toWord_mask v, toWord_dot v⟩, toWord_ofWord⟩

/-! ### Decoding and encoding -/

/-- Settles O42: the request has the one operand field its op selects; only a slot list is held there in
another form, from which each slot is read back. -/
theorem decodeOfEncodeIsTheInstruction : Obligations.DecodeOfEncodeIsTheInstruction := by
  intro i
  cases i with
  | encodeSlots l => exact congrArg (fun l => Except.ok (Instr.encodeSlots l)) (map_ofWord_map_toWord l)
  | lookup | clearFrame | textToSlots | encodeText | reserved101 | reserved110 | reserved111 => rfl

/-- Settles O43: with an op of at most 4 a record decodes only if it has the operand its op selects and no
other, and then encoding puts back just that. -/
theorem encodeOfDecodeIsTheRequest : Obligations.EncodeOfDecodeIsTheRequest := by
  intro q i hd hop
  obtain ⟨op, ch, slots, text⟩ := q
  obtain rfl : op = i.op := Laws.op_of_decode hd
  cases i with
  | encodeSlots l =>
    cases ch <;> cases slots <;> cases text <;> cases hd
    simp only [encode, RawRequest.bare, map_toWord_map_ofWord]
  | lookup | clearFrame | textToSlots | encodeText =>
    cases ch <;> cases slots <;> cases text <;> cases hd
    rfl
  | reserved101 | reserved110 | reserved111 => exact absurd hop (by decide)

/-- Settles O45: each of the six records has exactly the operand its op selects. -/
theorem specRequestsDecode : Obligations.SpecRequestsDecode :=
  ⟨rfl, rfl, rfl, rfl, rfl, rfl⟩

end Sys2Proof.Machine
end

section
/-! PROOFS. The scan against its closed form (R152): a period in front of the text points the last slot held,
and then each consumer fills one slot, with a point exactly where a period follows it. -/

namespace Sys2Proof.Machine

open Sys2Proof.ClosedForm

/-! ### The closed form, consumer by consumer -/

/-- The slots a list of consumers fills where `n` are free, or the error of the first of them that has no
entry or no room (R145 to R147). -/
def fillSlots (tab : Ch → Option Mask) : Nat → List Consumer → Except SmfeError (List Slot)
  | _, [] => .ok []
  | 0, c :: _ => .error (.textTooLong c.index)
  | n + 1, c :: cs =>
    match tab c.ch with
    | none => .error (.unsupportedCharacter c.ch c.index)
    | some m => (fillSlots tab n cs).map ({ mask := m, dot := c.dot } :: ·)

/-- R152 says of a list of consumers in three searches what filling slots says of one after another. -/
theorem fillSlots_eq (tab : Ch → Option Mask) (n : Nat) (cs : List Consumer) :
    fillSlots tab n cs =
      match (cs.take n).find? fun c => (tab c.ch).isNone with
      | some c => .error (.unsupportedCharacter c.ch c.index)
      | none =>
        match cs[n]? with
        | some c => .error (.textTooLong c.index)
        | none => .ok (cs.filterMap fun c => (tab c.ch).map fun m => { mask := m, dot := c.dot }) := by
  induction cs generalizing n with
  | nil => simp [fillSlots]
  | cons c cs ih =>
    cases n with
    | zero => simp [fillSlots]
    | succ n =>
      cases hc : tab c.ch with
      | none => simp [fillSlots, hc]
      | some m =>
        simp only [fillSlots, hc, ih n, List.take_succ_cons, List.find?_cons, Option.isNone_some,
          List.getElem?_cons_succ, List.filterMap_cons, Option.map_some]
        cases (cs.take n).find? fun c => (tab c.ch).isNone with
        | some e => rfl
        | none => cases cs[n]? <;> rfl

theorem closedForm_scan_eq_fillSlots (tab : Ch → Option Mask) (text : Text) :
    ClosedForm.scan tab text = fillSlots tab 4 (consumers 0 text) :=
  (fillSlots_eq tab 4 (consumers 0 text)).symm

/-! ### The scan, consumer by consumer -/

/-- The slots held once a period that stands first in the text has been attached (R144). -/
def pointed (text : Text) (l : List Slot) : List Slot :=
  if text.head?.any isPeriod then l.modify (l.length - 1) withPoint else l

theorem pointed_nil (text : Text) : pointed text [] = [] := by
  simp [pointed]

theorem pointed_append_singleton (text : Text) (l : List Slot) (m : Mask) :
    pointed text (l ++ [consumedSlot m]) = l ++ [{ mask := m, dot := text.head?.any isPeriod }] := by
  cases h : text.head?.any isPeriod <;>
    simp [pointed, h, consumedSlot, withPoint, List.modify_eq_take_drop]

/-- A second period changes nothing (R144, R150). -/
theorem pointed_modify_withPoint (text : Text) (l : List Slot) :
    pointed text (l.modify (l.length - 1) withPoint) = l.modify (l.length - 1) withPoint := by
  have twice : withPoint ∘ withPoint = withPoint := rfl
  unfold pointed
  split
  · rw [List.length_modify, List.modify_modify_eq, twice]
  · rfl

/-- With `l` held, a scan points the last slot if a period stands first, then fills what is left. -/
theorem scanLists_eq_fillSlots (tab : Ch → Option Mask) (text : Text) {l : List Slot} (j : Nat)
    (hl : l.length ≤ 4) :
    scanLists tab text l j =
      (fillSlots tab (4 - l.length) (consumers j text)).map (pointed text l ++ ·) := by
  induction text generalizing l j with
  | nil => simp [scanLists, consumers, fillSlots, pointed, Except.map]
  | cons c rest ih =>
    by_cases hc : isPeriod c = true
    · have hstep : scanList tab c l j = .ok (l.modify (l.length - 1) withPoint) := by
        simp [scanList, hc]
      have hpoint : pointed (c :: rest) l = l.modify (l.length - 1) withPoint := by
        simp [pointed, hc]
      simp only [scanLists, hstep, consumers, hc, if_true, hpoint]
      rw [ih (j + 1) (by simpa using hl), pointed_modify_withPoint, List.length_modify]
    · have hpoint : pointed (c :: rest) l = l := by simp [pointed, hc]
      simp only [scanLists, scanList, consumers, hc, if_false, Bool.false_eq_true, hpoint]
      obtain hroom | hfull := Nat.lt_or_ge l.length 4
      · obtain ⟨n, hn⟩ : ∃ n, 4 - l.length = n + 1 := ⟨3 - l.length, by omega⟩
        rw [if_pos hroom, hn, fillSlots]
        cases tab c with
        | none => rfl
        | some m =>
          have hleft : 4 - (l ++ [consumedSlot m]).length = n := by simp; omega
          simp only [ih (j + 1) (l := l ++ [consumedSlot m]) (by simp; omega), hleft,
            pointed_append_singleton]
          cases fillSlots tab n (consumers (j + 1) rest) <;> simp [Except.map]
      · rw [if_neg (Nat.not_lt.mpr hfull), Nat.sub_eq_zero_of_le hfull]
        rfl

/-- The scan is the spec's closed form (R152), of every text and table. -/
theorem closedForm_scan_eq (tab : Ch → Option Mask) (text : Text) :
    ClosedForm.scan tab text = scanLists tab text [] 0 := by
  rw [closedForm_scan_eq_fillSlots, scanLists_eq_fillSlots tab text (l := []) 0 (Nat.zero_le 4), pointed_nil]
  cases fillSlots tab 4 (consumers 0 text) <;> rfl

end Sys2Proof.Machine
end

section
/-! PROOFS. Every operation answers the closed form of its response (R100, R120, R127, R130, R140, R151,
R152), in every state; so it terminates (R246), writes the ports and the working registers alone, and its
response depends on its operand, the table and the parameters alone (R48, R241). -/

namespace Sys2Proof.Machine

/-! ### The encoder and the text operations -/

/-- Settles O9: the encoder leaves the packed frame, which is the closed form. -/
theorem encoderMatchesClosedForm : Obligations.EncoderMatchesClosedForm := by
  intro p l s hl
  rw [encodeFrame_ok p s hl, packedFrame_eq_closedForm]

/-- Settles O26: the slots or the error come from the scan of lists, which is the closed form. -/
theorem textToSlotsMatchesClosedForm : Obligations.TextToSlotsMatchesClosedForm := by
  intro text s
  rw [closedForm_scan_eq]
  exact execTextToSlots_eq text s

/-- Settles O32: the same scan, and the encoder's frame of its slots. -/
theorem encodeTextMatchesClosedForm : Obligations.EncodeTextMatchesClosedForm := by
  intro text s
  simp only [closedForm_scan_eq, ← packedFrame_eq_closedForm]
  exact execEncodeText_eq text s

/-! ### Every operation -/

/-- Settles O37: for each operation, what is known of its answer is what the closed form says. -/
theorem execMatchesClosedForms : Obligations.ExecMatchesClosedForms := by
  intro i s
  cases i with
  | lookup c => exact execLookup_eq c s
  | encodeSlots l =>
    have h := execEncodeSlots_eq l s
    rwa [packedFrame_eq_closedForm] at h
  | clearFrame =>
    have h := exec_encodeSlots_ok (l := []) s (Nat.zero_le 4)
    rw [emptyEncodeEqualsClearFrame s, packedFrame_eq_closedForm] at h
    exact h
  | textToSlots text => exact textToSlotsMatchesClosedForm text s
  | encodeText text => exact encodeTextMatchesClosedForm text s
  | reserved101 => exact raise_eq (.illegalOperation 0b101#3) s
  | reserved110 => exact raise_eq (.illegalOperation 0b110#3) s
  | reserved111 => exact raise_eq (.illegalOperation 0b111#3) s

theorem eq_response_of_exec {i : Instr} {s t : State} {r : Response} (h : exec i s = .next t)
    (hr : t.response = some r) : r = ClosedForm.response s i := by
  obtain rfl := Host.Outcome.next.inj (h.symm.trans (execMatchesClosedForms i s))
  exact (Option.some.inj hr).symm

/-- Settles O36: every meaning ends in `answered` with some response. -/
theorem everyOperationAnswers : Obligations.EveryOperationAnswers := exec_answers

/-- Settles O8: an operation leaves `answered`, and no step writes a constant. -/
theorem operationsChangeOnlyPortsAndWorkingRegisters :
    Obligations.OperationsChangeOnlyPortsAndWorkingRegisters := by
  refine ⟨fun i s t h => ?_, fun s t h => (step_keeps_constants h).1⟩
  obtain ⟨r, rfl⟩ := eq_answered_of_exec h
  exact ⟨rfl, rfl, ⟨rfl, rfl, rfl, rfl⟩, rfl, rfl, rfl, rfl, rfl, rfl⟩

/-- Settles O34: a reserved code raises its error and does nothing else. -/
theorem reservedCodesAnswerIllegalOperation : Obligations.ReservedCodesAnswerIllegalOperation :=
  fun s => ⟨raise_eq _ s, raise_eq _ s, raise_eq _ s⟩

/-! ### What a response depends on -/

theorem response_congr {s t : State} (hmap : s.segMap = t.segMap) (hparams : s.params = t.params) :
    ClosedForm.response s = ClosedForm.response t := by
  funext i
  cases i <;> simp only [ClosedForm.response, tableRead_congr hmap, hparams]

/-- Settles O38: the closed forms read the table and the parameters and no more of the state. -/
theorem responseDependsOnRequestAndConstantsOnly :
    Obligations.ResponseDependsOnRequestAndConstantsOnly := by
  intro i s t hmap hparams
  refine ⟨ClosedForm.response s i, execMatchesClosedForms i s, ?_⟩
  rw [response_congr hmap hparams]
  exact execMatchesClosedForms i t

theorem scanList_congr {tab tab' : Ch → Option Mask} {c : Ch} (h : isPeriod c = false → tab c = tab' c)
    (l : List Slot) (j : Nat) : scanList tab c l j = scanList tab' c l j := by
  unfold scanList
  cases hc : isPeriod c with
  | false => rw [h hc]
  | true => rfl

/-- A scan reads the table at consumers alone (R142). -/
theorem scanLists_congr {tab tab' : Ch → Option Mask} (h : ∀ c, isPeriod c = false → tab c = tab' c)
    (text : Text) (l : List Slot) (j : Nat) : scanLists tab text l j = scanLists tab' text l j := by
  induction text generalizing l j with
  | nil => rfl
  | cons c rest ih => simp only [scanLists, scanList_congr (h c), ih]

/-- Entry 14 of the table is the period's (R101): no other character reads it. -/
theorem tableRead_set_period (s : State) (m : Mask) {c : Ch} (hc : isPeriod c = false) :
    State.tableRead { s with segMap := s.segMap.set 14 m } c = s.tableRead c := by
  by_cases h : 0x20 ≤ c.toNat ∧ c.toNat ≤ 0x7E
  · have hne : 14 ≠ c.toNat - 0x20 := by
      intro heq
      obtain rfl : c = 0x2E#32 := BitVec.eq_of_toNat_eq (by rw [BitVec.toNat_ofNat]; omega)
      cases hc
    rw [tableRead_supported _ c h, tableRead_supported _ c h]
    simp only [Vector.getElem_set_ne _ _ hne]
  · rw [tableRead_unsupported _ c h, tableRead_unsupported _ c h]

/-- Settles O33: of the operations but LOOKUP only the text operations read the table, and they read it at
consumers. -/
theorem periodEntryAffectsLookupAlone : Obligations.PeriodEntryAffectsLookupAlone := by
  intro i s m hi
  have hscan (text : Text) : ClosedForm.scan s.tableRead text =
      ClosedForm.scan (State.tableRead { s with segMap := s.segMap.set 14 m }) text := by
    rw [closedForm_scan_eq, closedForm_scan_eq]
    exact scanLists_congr (fun c hc => (tableRead_set_period s m hc).symm) text [] 0
  have hresponse : ClosedForm.response s i =
      ClosedForm.response { s with segMap := s.segMap.set 14 m } i := by
    cases i with
    | lookup c => exact absurd rfl (hi c)
    | textToSlots text => simp only [ClosedForm.response, hscan text]
    | encodeText text => simp only [ClosedForm.response, hscan text]
    | encodeSlots | clearFrame | reserved101 | reserved110 | reserved111 => rfl
  refine ⟨ClosedForm.response s i, execMatchesClosedForms i s, ?_⟩
  rw [hresponse]
  exact execMatchesClosedForms i _

/-! ### The sentinels and the blank line -/

/-- Settles O47: the operands stand for slots of the two sentinels, which the encoder packs. -/
theorem sentinelOperandsEncodeTheirMasks : Obligations.SentinelOperandsEncodeTheirMasks := by
  intro s a b ⟨_, hblank, hallOn⟩
  have hslots : (AsmLine.encode [.blank a, .allOn b]).assemble s =
      .encodeSlots [⟨0x0000#16, a⟩, ⟨Config.maskAllOn, b⟩] := by
    simp only [AsmLine.assemble, List.map_cons, List.map_nil, SlotOperand.resolve, hblank, hallOn,
      Config.maskBlank]
  rw [hslots, exec_encodeSlots_ok s (by simp), packedFrame_eq_closedForm]

/-- Settles O46: BLANK is ENCODE of the empty list, whose frame is CLEAR_FRAME's. -/
theorem blankLineIsAnEmptyEncode : Obligations.BlankLineIsAnEmptyEncode :=
  fun s => ⟨rfl, emptyEncodeEqualsClearFrame s⟩

end Sys2Proof.Machine
end

section
/-! PROOFS. The absorbed point (R129): where bit `DP_BIT` of the byte a point lands in is set already, ORing
it in changes no byte of the packed frame. -/

namespace Sys2Proof.Machine

open Sys2Proof.ClosedForm

theorem or_pointBit_of_getLsbD {p : Params} {b : Byte} (h : b.getLsbD p.dpBit.val = true) :
    b ||| pointBit p = b := by
  have hbit (n : Nat) : (pointBit p).getLsbD n = decide (p.dpBit.val = n) := by
    rw [pointBit, ← BitVec.twoPow_eq, BitVec.getLsbD_twoPow, decide_eq_true p.dpBit.isLt, Bool.true_and]
  refine BitVec.eq_of_getLsbD_eq fun n _ => ?_
  rw [BitVec.getLsbD_or, hbit]
  by_cases hn : p.dpBit.val = n
  · rw [← hn, h, Bool.true_or]
  · rw [decide_eq_false hn, Bool.or_false]

/-- Where the point's bit is set in the mask's byte already, the point is not seen (R129). -/
theorem entryByte_absorbed {p : Params} {m : Mask}
    (h : (maskByte p.dpByteOffset m).getLsbD p.dpBit.val = true) (d : DpByteOffset) :
    entryByte p d (some { mask := m, dot := true }) = entryByte p d (some { mask := m, dot := false }) := by
  by_cases hd : p.dpByteOffset = d
  · subst hd
    simp [entryByte, pointIn, or_pointBit_of_getLsbD h]
  · simp [entryByte, pointIn, hd]

theorem packedFrame_absorbed {p : Params} {m : Mask}
    (h : (maskByte p.dpByteOffset m).getLsbD p.dpBit.val = true) (l : List Slot) (i : Nat) :
    packedFrame p (l.set i { mask := m, dot := true }) =
      packedFrame p (l.set i { mask := m, dot := false }) := by
  refine frame_ext ?_ fun j d => ?_
  · rw [packedFrame_getElem_zero, packedFrame_getElem_zero]
  · rw [packedFrame_getElem_slotByte_eq, packedFrame_getElem_slotByte_eq]
    by_cases hj : i = j.val
    · subst hj
      by_cases hlen : j.val < l.length
      · rw [List.getElem?_set_self hlen, List.getElem?_set_self hlen, entryByte_absorbed h]
      · have hend := Nat.le_of_not_lt hlen
        rw [List.set_eq_of_length_le hend, List.set_eq_of_length_le hend]
    · rw [List.getElem?_set_ne hj, List.getElem?_set_ne hj]

theorem encodeFrame_absorbed {p : Params} {m : Mask}
    (h : (maskByte p.dpByteOffset m).getLsbD p.dpBit.val = true) (l : List Slot) (i : Nat) (s : State) :
    encodeFrame p (l.set i { mask := m, dot := true }) s =
      encodeFrame p (l.set i { mask := m, dot := false }) s := by
  obtain hl | hl := Nat.lt_or_ge 4 l.length
  · rw [encodeFrame_tooMany p s (by rwa [List.length_set]),
      encodeFrame_tooMany p s (by rwa [List.length_set]), List.length_set, List.length_set]
  · rw [encodeFrame_ok p s (by rwa [List.length_set]), encodeFrame_ok p s (by rwa [List.length_set]),
      packedFrame_absorbed h]

theorem exec_encodeSlots_absorbed {s : State} {m : Mask}
    (h : (maskByte s.params.dpByteOffset m).getLsbD s.params.dpBit.val = true) (l : List Slot) (i : Nat) :
    exec (.encodeSlots (l.set i { mask := m, dot := true })) s =
      exec (.encodeSlots (l.set i { mask := m, dot := false })) s := by
  have hencode := encodeFrame_absorbed h l i s
  exact congrArg (fun r => conclude s (r >>= frameResult)) hencode

/-- At the source's values the bit a point lands in is bit 6 of the mask (R124). -/
theorem maskByte_getLsbD_of_source {p : Params} (hoff : p.dpByteOffset = .one) (hbit : p.dpBit = 6)
    (m : Mask) : (maskByte p.dpByteOffset m).getLsbD p.dpBit.val = m.getLsbD 6 := by
  rw [hoff, hbit]
  exact BitVec.getLsbD_extractLsb' ..

/-- Settles O16: ORing a bit that is set changes no byte, so neither encoder nor operation sees the point;
bit 6 of `0x00F7` is set and that of `0x0C3F` is not. -/
theorem pointIsAbsorbedByASetBit : Obligations.PointIsAbsorbedByASetBit := by
  refine ⟨fun p l s i _ h => encodeFrame_absorbed h l i s,
    fun l s i _ h => exec_encodeSlots_absorbed h l i, fun l s i _ hoff hbit h => ?_,
    fun s hoff hbit => ?_, fun s hoff hbit => ?_⟩
  · exact exec_encodeSlots_absorbed ((maskByte_getLsbD_of_source hoff hbit _).trans h) l i
  · have hset : (0x00F7#16 : Mask).getLsbD 6 = true := by decide
    exact exec_encodeSlots_absorbed ((maskByte_getLsbD_of_source hoff hbit _).trans hset)
      [⟨0x00F7#16, true⟩] 0
  · have hframe : packedFrame s.params [⟨0x0C3F#16, true⟩] =
        #v[0x00#8, 0x7F#8, 0x0C#8, 0#8, 0#8, 0#8, 0#8, 0#8, 0#8] := by
      rw [packedFrame_eq_closedForm]
      simp [ClosedForm.frame, frameByte, maskByte, pointIn, pointBit, hoff, hbit, lowByte, highByte]
    rw [exec_encodeSlots_ok s (by simp), hframe]

end Sys2Proof.Machine
end

section
/-! PROOFS. Texts alike: where a scan succeeds its position plays no part, so periods that attach to the same
slot or to none can be added and taken away (R143, R144, R150); where it fails, what follows plays no
part (R148); and ENCODE_TEXT is the scan followed by the encoder (R151). -/

namespace Sys2Proof.Machine

/-! ### What TEXT_TO_SLOTS and ENCODE_TEXT answer, from the scan of lists -/

theorem exec_textToSlots_of_error {text : Text} {s : State} {e : SmfeError}
    (h : scanLists s.tableRead text [] 0 = .error e) :
    exec (.textToSlots text) s = .next (answered (.error e) s) :=
  (execTextToSlots_eq text s).trans (by rw [h])

theorem exec_encodeText_of_error {text : Text} {s : State} {e : SmfeError}
    (h : scanLists s.tableRead text [] 0 = .error e) :
    exec (.encodeText text) s = .next (answered (.error e) s) :=
  (execEncodeText_eq text s).trans (by rw [h])

theorem exec_encodeText_of_ok {text : Text} {s : State} {l : List Slot}
    (h : scanLists s.tableRead text [] 0 = .ok l) :
    exec (.encodeText text) s = .next (answered (.ok (.frame (packedFrame s.params l))) s) :=
  (execEncodeText_eq text s).trans (by rw [h])

theorem response_unique {i : Instr} {s : State} {r r' : Response} (h : exec i s = .next (answered r s))
    (h' : exec i s = .next (answered r' s)) : r = r' :=
  Option.some.inj (congrArg State.response (Host.Outcome.next.inj (h.symm.trans h')))

/-- The slots are answered exactly when the scan ends with them. -/
theorem exec_textToSlots_eq_slots_iff {text : Text} {s : State} {l : List Slot} :
    exec (.textToSlots text) s = .next (answered (.ok (.slots l)) s) ↔
      scanLists s.tableRead text [] 0 = .ok l :=
  ⟨fun h => scanLists_of_exec_textToSlots h rfl, exec_textToSlots_of_ok⟩

theorem scanLists_error_of_exec_textToSlots {text : Text} {s t : State} {e : SmfeError}
    (h : exec (.textToSlots text) s = .next t) (hr : t.response = some (.error e)) :
    scanLists s.tableRead text [] 0 = .error e := by
  obtain rfl := Host.Outcome.next.inj ((execTextToSlots_eq text s).symm.trans h)
  have hresponse := Option.some.inj hr
  split at hresponse
  · cases hresponse
  · next e' he => cases hresponse; exact he

/-! ### The first error -/

theorem scanLists_append_of_error {tab : Ch → Option Mask} {text : Text} {l : List Slot} {j : Nat}
    {e : SmfeError} (h : scanLists tab text l j = .error e) (more : Text) :
    scanLists tab (text ++ more) l j = .error e := by
  induction text generalizing l j with
  | nil => cases h
  | cons c rest ih =>
    simp only [List.cons_append, scanLists] at h ⊢
    cases hc : scanList tab c l j with
    | ok l' => rw [hc] at h; exact ih h
    | error e' => rwa [hc] at h

/-- Settles O28: the scan of lists that fails fails alike with more after it, and both operations answer
its error. -/
theorem firstErrorEndsTheScan : Obligations.FirstErrorEndsTheScan := by
  intro text more s e h
  have hscan := scanLists_append_of_error (scanLists_error_of_exec_textToSlots h rfl) more
  exact ⟨exec_textToSlots_of_error hscan, exec_encodeText_of_error hscan⟩

/-! ### Periods that change nothing -/

/-- The position is read by errors alone (R201, R202). -/
theorem scanList_ok_of_ok {tab : Ch → Option Mask} {c : Ch} {l l' : List Slot} {j : Nat}
    (h : scanList tab c l j = .ok l') (j' : Nat) : scanList tab c l j' = .ok l' := by
  unfold scanList at h ⊢
  by_cases hc : isPeriod c = true
  · rwa [if_pos hc] at h ⊢
  · by_cases hroom : l.length < 4
    · rw [if_neg hc, if_pos hroom] at h ⊢
      split at h
      · exact h
      · cases h
    · rw [if_neg hc, if_neg hroom] at h
      cases h

theorem scanLists_ok_of_ok {tab : Ch → Option Mask} {text : Text} {l l' : List Slot} {j : Nat}
    (h : scanLists tab text l j = .ok l') (j' : Nat) : scanLists tab text l j' = .ok l' := by
  induction text generalizing l j j' with
  | nil => exact h
  | cons c rest ih =>
    simp only [scanLists] at h ⊢
    split at h
    · next l1 h1 =>
      rw [scanList_ok_of_ok h1 j']
      exact ih h (j' + 1)
    · cases h

theorem scanLists_ok_iff_ok (tab : Ch → Option Mask) (text : Text) (l l' : List Slot) (j j' : Nat) :
    scanLists tab text l j = .ok l' ↔ scanLists tab text l j' = .ok l' :=
  ⟨fun h => scanLists_ok_of_ok h j', fun h => scanLists_ok_of_ok h j⟩

theorem scanLists_period_cons (tab : Ch → Option Mask) {c : Ch} (hc : isPeriod c = true) (rest : Text)
    (l : List Slot) (j : Nat) :
    scanLists tab (c :: rest) l j = scanLists tab rest (l.modify (l.length - 1) withPoint) (j + 1) := by
  simp only [scanLists, scanList, hc, if_true]

/-- Before a period another one changes nothing but positions: both attach to the same slot (R144). -/
theorem scanLists_period_before_period (tab : Ch → Option Mask) {c : Ch} (hc : isPeriod c = true)
    {rest : Text} (hrest : rest.head?.any isPeriod = true) (l : List Slot) (j : Nat) :
    scanLists tab (c :: rest) l j = scanLists tab rest l (j + 1) := by
  cases rest with
  | nil => cases hrest
  | cons d rest =>
    have hd : isPeriod d = true := hrest
    have htwice : withPoint ∘ withPoint = withPoint := rfl
    rw [scanLists_period_cons tab hc, scanLists_period_cons tab hd, scanLists_period_cons tab hd,
      List.length_modify, List.modify_modify_eq, htwice]

theorem scanLists_collapse_ok_iff (tab : Ch → Option Mask) (text : Text) (l l' : List Slot) (j : Nat) :
    scanLists tab (ClosedForm.collapse text) l j = .ok l' ↔ scanLists tab text l j = .ok l' := by
  induction text generalizing l j with
  | nil => rfl
  | cons c rest ih =>
    unfold ClosedForm.collapse
    split
    · next hperiods =>
      obtain ⟨hc, hrest⟩ := Bool.and_eq_true_iff.mp hperiods
      rw [ih, scanLists_period_before_period tab hc hrest]
      exact scanLists_ok_iff_ok tab rest l l' j (j + 1)
    · simp only [scanLists]
      cases scanList tab c l j with
      | ok l1 => exact ih l1 (j + 1)
      | error e => rfl

/-- Settles O29: a collapsed period attaches to the slot the next one attaches to. -/
theorem collapsingPeriodRunsKeepsTheSlots : Obligations.CollapsingPeriodRunsKeepsTheSlots := by
  intro text s l
  rw [exec_textToSlots_eq_slots_iff, exec_textToSlots_eq_slots_iff]
  exact scanLists_collapse_ok_iff s.tableRead text [] l 0

theorem scanLists_leading_periods (tab : Ch → Option Mask) (n : Nat) (text : Text) (j : Nat) :
    scanLists tab (List.replicate n 0x2E#32 ++ text) [] j = scanLists tab text [] (j + n) := by
  induction n generalizing j with
  | zero => rfl
  | succ n ih =>
    have hperiod : isPeriod 0x2E#32 = true := rfl
    rw [List.replicate_succ, List.cons_append, scanLists_period_cons tab hperiod, List.modify_nil, ih,
      Nat.add_right_comm, Nat.add_assoc]

/-- Settles O30: leading periods move the position of the scan and nothing else. -/
theorem leadingPeriodsNeverChangeTheSlots : Obligations.LeadingPeriodsNeverChangeTheSlots := by
  intro n text s l
  rw [exec_textToSlots_eq_slots_iff, exec_textToSlots_eq_slots_iff, scanLists_leading_periods]
  exact scanLists_ok_iff_ok s.tableRead text [] l (0 + n) 0

/-! ### Why a scan fails -/

theorem scanList_error {tab : Ch → Option Mask} {c : Ch} {l : List Slot} {j : Nat} {e : SmfeError}
    (h : scanList tab c l j = .error e) :
    isPeriod c = false ∧
      ((l.length < 4 ∧ tab c = none ∧ e = .unsupportedCharacter c j) ∨
        (4 ≤ l.length ∧ e = .textTooLong j)) := by
  unfold scanList at h
  split at h
  · cases h
  · next hc =>
    refine ⟨eq_false_of_ne_true hc, ?_⟩
    split at h
    · next hroom =>
      split at h
      · cases h
      · next hnone => exact .inl ⟨hroom, hnone, (Except.error.inj h).symm⟩
    · next hfull => exact .inr ⟨Nat.le_of_not_lt hfull, (Except.error.inj h).symm⟩

/-- A scan that fails succeeds up to a character at which its step fails (R148). -/
theorem scanLists_error {tab : Ch → Option Mask} {text : Text} {l : List Slot} {j : Nat} {e : SmfeError}
    (h : scanLists tab text l j = .error e) :
    ∃ before c after l', text = before ++ c :: after ∧ scanLists tab before l j = .ok l' ∧
      scanList tab c l' (j + before.length) = .error e := by
  induction text generalizing l j with
  | nil => cases h
  | cons c rest ih =>
    simp only [scanLists] at h
    split at h
    · next l1 h1 =>
      obtain ⟨before, d, after, l', rfl, hok, herr⟩ := ih h
      refine ⟨c :: before, d, after, l', rfl, ?_, ?_⟩
      · simpa only [scanLists, h1] using hok
      · rwa [List.length_cons, Nat.add_comm before.length, ← Nat.add_assoc]
    · next h1 => exact ⟨[], c, rest, l, rfl, rfl, h1.trans h⟩

/-- A scan from its start holds one slot for each consumer (R145, R149). -/
theorem length_of_scanLists {tab : Ch → Option Mask} {text : Text} {l : List Slot} {j : Nat}
    (h : scanLists tab text [] j = .ok l) : l.length = (text.filter fun c => !isPeriod c).length := by
  simpa using congrArg List.length (scanLists_masks h)

/-- An error of a scan from its start: its cause, and where it stands in the text (R146, R147). -/
theorem scanLists_error_cause {tab : Ch → Option Mask} {text : Text} {e : SmfeError}
    (h : scanLists tab text [] 0 = .error e) :
    ∃ j c, text[j]? = some c ∧ isPeriod c = false ∧
      ((((text.take j).filter fun c => !isPeriod c).length < 4 ∧ tab c = none ∧
          e = .unsupportedCharacter c j) ∨
        (((text.take j).filter fun c => !isPeriod c).length = 4 ∧ e = .textTooLong j)) := by
  obtain ⟨before, c, after, l, rfl, hok, herr⟩ := scanLists_error h
  have hlength := length_of_scanLists hok
  have hbound : l.length ≤ 4 := scanLists_length (l := []) (Nat.zero_le 4) hok
  rw [Nat.zero_add] at herr
  obtain ⟨hc, hcause⟩ := scanList_error herr
  refine ⟨before.length, c, by simp, hc, ?_⟩
  rw [List.take_left, ← hlength]
  obtain hroom | ⟨hfull, he⟩ := hcause
  · exact .inl hroom
  · exact .inr ⟨Nat.le_antisymm hbound hfull, he⟩

/-! ### The registers a scan leaves -/

theorem slotBuffer_isSome_iff {l : List Slot} (i : Fin 4) :
    (slotBuffer l)[i].isSome = true ↔ i.val < l.length := by
  have hentry : (slotBuffer l)[i] = l[i.val]? := by fin_cases i <;> rfl
  rw [hentry, isSome_getElem?]

/-- Settles O25: the state is that of the slots held, as many as there were consumers, at the text's end. -/
theorem scanRegistersCountTheText : Obligations.ScanRegistersCountTheText := by
  intro text s t h
  rw [startScan_eq, scan_scanning text s [] 0 (Nat.zero_le 4), Nat.zero_add] at h
  split at h
  · next l hscan =>
    obtain rfl := Except.ok.inj h
    have hcount : (Fin.ofNat 5 l.length).val = l.length :=
      Nat.mod_eq_of_lt (Nat.lt_succ_of_le (scanLists_length (l := []) (Nat.zero_le 4) hscan))
    refine ⟨rfl, ⟨Fin.ofNat 5 l.length, rfl, ?_, fun i => ?_⟩, rfl⟩
    · exact hcount.trans (length_of_scanLists hscan)
    · rw [hcount]
      exact slotBuffer_isSome_iff i
  · cases h

/-! ### ENCODE_TEXT -/

/-- Settles O31: where the scan ends with slots both operations pack them; where it fails both answer its
error, which is of the text and so never TooManySlotsError. -/
theorem encodeTextIsScanThenEncode : Obligations.EncodeTextIsScanThenEncode := by
  intro text s t h
  refine ⟨fun l hr => ?_, fun e hr => ?_, fun n hn => ?_⟩
  · have hscan := scanLists_of_exec_textToSlots h hr
    have hlength := scanLists_length (l := []) (Nat.zero_le 4) hscan
    rw [exec_encodeText_of_ok hscan, exec_encodeSlots_ok s hlength]
  · have hscan := scanLists_error_of_exec_textToSlots h hr
    rw [exec_encodeText_of_error hscan, ← h, exec_textToSlots_of_error hscan]
  · cases hscan : scanLists s.tableRead text [] 0 with
    | ok l => cases response_unique (exec_encodeText_of_ok hscan) hn
    | error e =>
      obtain rfl : e = .tooManySlots n :=
        Response.error.inj (response_unique (exec_encodeText_of_error hscan) hn)
      obtain ⟨j, c, -, -, ⟨-, -, he⟩ | ⟨-, he⟩⟩ := scanLists_error_cause hscan <;> cases he

end Sys2Proof.Machine
end

section
/-! PROOFS. The responses SMFE can give: each error has its operation and cause (R200 to R205), and over the
constant table every response is lawful. So every step keeps the invariant, which holds at reset. -/

namespace Sys2Proof.Machine

/-! ### Errors -/

/-- Settles O39: the closed forms raise each error in one place, those of a text at the character at which
its scan fails. -/
theorem eachErrorHasItsOperationAndCause : Obligations.EachErrorHasItsOperationAndCause := by
  intro i s t e h hr
  have he := eq_response_of_exec h hr
  cases i with
  | lookup c =>
    simp only [ClosedForm.response] at he
    split at he
    · cases he
    · next hnone => cases he; exact ⟨hnone, .inl ⟨rfl, rfl⟩⟩
  | encodeSlots l =>
    simp only [ClosedForm.response] at he
    split at he
    · cases he
    · next hlong => cases he; exact ⟨l, rfl, rfl, Nat.lt_of_not_le hlong⟩
  | clearFrame => cases he
  | textToSlots text | encodeText text =>
    simp only [ClosedForm.response, closedForm_scan_eq] at he
    split at he
    · cases he
    · next hscan =>
      cases he
      obtain ⟨j, c, hj, hc, ⟨hroom, hnone, rfl⟩ | ⟨hfull, rfl⟩⟩ := scanLists_error_cause hscan
      · exact ⟨hnone, .inr ⟨text, by simp, hj, hc, hroom⟩⟩
      · exact ⟨text, by simp, ⟨c, hj, hc⟩, hfull⟩
  | reserved101 | reserved110 | reserved111 => cases he; exact ⟨rfl, by decide⟩

/-! ### Lawful responses -/

theorem lawful_scanLists_error {s : State} {text : Text} {e : SmfeError}
    (h : scanLists s.tableRead text [] 0 = .error e) : lawful (.error e) := by
  obtain ⟨j, c, -, -, ⟨-, hnone, rfl⟩ | ⟨hfull, rfl⟩⟩ := scanLists_error_cause h
  · exact (tableRead_eq_none_iff s c).mp hnone
  · calc 4 = ((text.take j).filter fun c => !isPeriod c).length := hfull.symm
      _ ≤ (text.take j).length := List.length_filter_le ..
      _ ≤ j := List.length_take_le j text

theorem mem_of_tableRead {s : State} (hmap : s.segMap = Config.segMap) {c : Ch} {m : Mask}
    (h : s.tableRead c = some m) : m ∈ Config.segMap.toList :=
  hmap ▸ tableRead_mem h

theorem lawful_scanLists_ok {s : State} (hmap : s.segMap = Config.segMap) {text : Text} {l : List Slot}
    (h : scanLists s.tableRead text [] 0 = .ok l) : lawful (.ok (.slots l)) := by
  refine ⟨scanLists_length (l := []) (Nat.zero_le 4) h, fun v hv => ?_⟩
  have hmem : some v.mask ∈ (text.filter fun c => !isPeriod c).map s.tableRead := by
    have hmasks := scanLists_masks h
    rw [List.map_nil, List.nil_append] at hmasks
    exact hmasks ▸ List.mem_map_of_mem hv
  obtain ⟨c, -, hc⟩ := List.mem_map.mp hmem
  exact mem_of_tableRead hmap hc

theorem lawful_frame (p : Params) (l : List Slot) : lawful (.ok (.frame (ClosedForm.frame p l))) := by
  rw [← packedFrame_eq_closedForm]
  exact packedFrame_getElem_zero p l

/-- Over the constant table every operation answers lawfully. -/
theorem lawful_response {s : State} (hmap : s.segMap = Config.segMap) (i : Instr) :
    lawful (ClosedForm.response s i) := by
  cases i with
  | lookup c =>
    simp only [ClosedForm.response]
    split
    · next m hm => exact mem_of_tableRead hmap hm
    · next hnone => exact (tableRead_eq_none_iff s c).mp hnone
  | encodeSlots l =>
    simp only [ClosedForm.response]
    split
    · exact lawful_frame s.params l
    · next hlong => exact Nat.lt_of_not_le hlong
  | clearFrame => exact lawful_frame s.params []
  | textToSlots text =>
    simp only [ClosedForm.response, closedForm_scan_eq]
    split
    · next hscan => exact lawful_scanLists_ok hmap hscan
    · next hscan => exact lawful_scanLists_error hscan
  | encodeText text =>
    simp only [ClosedForm.response, closedForm_scan_eq]
    split
    · next l _ => exact lawful_frame s.params l
    · next hscan => exact lawful_scanLists_error hscan
  | reserved101 | reserved110 | reserved111 => exact Nat.le_of_ble_eq_true rfl

/-! ### The invariant -/

theorem inv_reset : Inv State.reset :=
  ⟨⟨rfl, rfl, rfl⟩, ⟨rfl, rfl, rfl, rfl⟩, nofun, nofun⟩

/-- Settles O54: reset holds the constants, no working register and no response. -/
theorem invariantHoldsAtReset : Obligations.InvariantHoldsAtReset := ⟨inv_reset, rfl, rfl⟩

/-- The caller puts a request on its port or takes a response SMFE gave. -/
theorem callerMove_keeps_inv {s : State} (h : Inv s) : Inv (callerMove s) := by
  obtain ⟨hconstants, hresting, hpending, hdelivered⟩ := h
  obtain ⟨-, hm⟩ | ⟨q, rest, -, hm⟩ | ⟨rest, -, hm⟩ := callerMove_cases s <;> rw [hm]
  · exact ⟨hconstants, hresting, hpending, hdelivered⟩
  · exact ⟨hconstants, hresting, hpending, hdelivered⟩
  · refine ⟨hconstants, hresting, nofun, fun r hr => ?_⟩
    obtain hr | hr := List.mem_append.mp hr
    · exact hdelivered r hr
    · exact hpending r (Option.mem_toList.mp hr)

/-- An operation answers lawfully and releases the working registers. -/
theorem exec_keeps_inv {i : Instr} {s t : State} (h : Inv s) (hexec : exec i s = .next t) : Inv t := by
  obtain ⟨hconstants, -, -, hdelivered⟩ := h
  obtain rfl := Host.Outcome.next.inj ((execMatchesClosedForms i s).symm.trans hexec)
  refine ⟨hconstants, ⟨rfl, rfl, rfl, rfl⟩, fun r hr => ?_, hdelivered⟩
  obtain rfl := Option.some.inj hr
  exact lawful_response hconstants.1 i

/-- Settles O55: a step is a move of the caller or an operation, and both keep the invariant. -/
theorem everyStepKeepsTheInvariant : Obligations.EveryStepKeepsTheInvariant := by
  intro s t hinv hstep
  obtain ⟨-, rfl⟩ | ⟨q, i, -, -, -, -, hexec⟩ := step_cases hstep
  · exact callerMove_keeps_inv hinv
  · exact exec_keeps_inv hinv hexec

/-- Settles O2: besides what the invariant says of reset, nothing is on the ports and the parameters are
R10's. -/
theorem resetHoldsConstantsAndNothingElse : Obligations.ResetHoldsConstantsAndNothingElse :=
  ⟨inv_reset.constants, inv_reset.resting, rfl, rfl, rfl⟩

/-! ### What a response holds -/

/-- Settles O40: the status is given kind by kind. -/
theorem statusCodesAreTheTable : Obligations.StatusCodesAreTheTable
  | .ok _ => rfl
  | .error (.unsupportedCharacter _ _) => rfl
  | .error (.textTooLong _) => rfl
  | .error (.tooManySlots _) => rfl
  | .error (.illegalOperation _) => rfl

theorem status_error_ne_zero (e : SmfeError) : (Response.error e).status ≠ 0x0#4 := by
  cases e <;> exact of_decide_eq_false rfl

/-- Settles O41: status 0 is that of a result, and no error has it. -/
theorem errorsCarryInfoAndNoResult : Obligations.ErrorsCarryInfoAndNoResult
  | .ok _ => by simp [Response.status, Response.result, Response.info]
  | .error e => by simp [status_error_ne_zero e, Response.result, Response.info]

end Sys2Proof.Machine
end

section
/-! PROOFS. The step (R27, R60, R244): what it does for each thing that can stand on the ports, and from that
what is run, refused and never happens, and how a caller's requests are answered one after another. -/

namespace Sys2Proof.Machine

/-! ### What a step does -/

theorem step_idle {s : State} (h : s.request = none) : step s = .next (callerMove s) := by
  rw [step, fetch_idle h]

theorem step_busy {s : State} {q : RawRequest} {r : Response} (h : s.request = some q)
    (hr : s.response = some r) : step s = .refused .requestWhileBusy := by
  rw [step, fetch_busy h hr]

theorem step_malformed {s : State} {q : RawRequest} {why : DecodeError} (h : s.request = some q)
    (hr : s.response = none) (hd : decode q = .error why) :
    step s = .refused (.malformedRequest why) := by
  rw [step, fetch_malformed h hr hd]

theorem step_outside {s : State} {q : RawRequest} {i : Instr} (h : s.request = some q)
    (hr : s.response = none) (hd : decode q = .ok i) (hw : i.wellFormed s.params = false) :
    ∃ why, step s = .refused (.outsideParameters why) := by
  obtain ⟨why, ho⟩ := Option.isSome_iff_exists.mp (Option.isNone_eq_false_iff.mp hw)
  exact ⟨why, by rw [step, fetch_outside h hr hd ho]⟩

/-- Settles O48: what is fetched is the instruction decoded. -/
theorem stepRunsTheDecodedRequest : Obligations.StepRunsTheDecodedRequest := by
  intro s q i h hr hd hw
  rw [step, fetch_decoded h hr hd hw]

theorem step_answers {s : State} {q : RawRequest} {i : Instr} (h : s.request = some q)
    (hr : s.response = none) (hd : decode q = .ok i) (hw : i.wellFormed s.params = true) :
    step s = .next (answered (ClosedForm.response s i) s) :=
  (stepRunsTheDecodedRequest s q i h hr hd hw).trans (execMatchesClosedForms i s)

/-- Settles O50: the response pending is looked at before the request. -/
theorem secondRequestIsRefused : Obligations.SecondRequestIsRefused := fun _ _ _ => step_busy

/-- Settles O53: a fetched instruction is answered, and a step does nothing else but refuse or let the
caller move. -/
theorem noStepFaults : Obligations.NoStepFaults := by
  intro s f h
  unfold step at h
  split at h
  · cases h
  · cases h
  · next i _ => cases (execMatchesClosedForms i s).symm.trans h

/-! ### What is refused -/

theorem wellFormed_iff (p : Params) (i : Instr) : i.wellFormed p = true ↔ i.outside p = none :=
  Option.isNone_iff_eq_none

/-- Only a decoded request that is not well-formed is refused as outside the parameters. -/
theorem decoded_of_step_outside {s : State} {why : BoundError}
    (h : step s = .refused (.outsideParameters why)) :
    ∃ q i, s.request = some q ∧ s.response = none ∧ decode q = .ok i ∧
      i.wellFormed s.params = false := by
  cases hq : s.request with
  | none => cases (step_idle hq).symm.trans h
  | some q =>
    cases hr : s.response with
    | some r => cases (step_busy hq hr).symm.trans h
    | none =>
      cases hd : decode q with
      | error e => cases (step_malformed hq hr hd).symm.trans h
      | ok i =>
        refine ⟨q, i, rfl, rfl, hd, ?_⟩
        cases hw : i.wellFormed s.params with
        | false => rfl
        | true => cases (step_answers hq hr hd hw).symm.trans h

/-- Settles O49: the two bounds are what the check looks at, of the three operations with characters alone,
and the step refuses so where it fails. -/
theorem onlyRequestsOutsideTheBoundsAreRefused : Obligations.OnlyRequestsOutsideTheBoundsAreRefused := by
  refine ⟨fun p text => ⟨?_, ?_⟩, fun p c => ?_, fun p i h0 h3 h4 => ?_, fun s => ⟨?_, ?_⟩,
    wellFormed_default⟩
  · exact (wellFormed_iff p (.textToSlots text)).trans (textOutside_eq_none_iff p text)
  · exact (wellFormed_iff p (.encodeText text)).trans (textOutside_eq_none_iff p text)
  · rw [wellFormed_iff, Instr.outside]
    simp [charWithin]
  · cases i with
    | lookup c => exact absurd rfl h0
    | textToSlots text => exact absurd rfl h3
    | encodeText text => exact absurd rfl h4
    | encodeSlots | clearFrame | reserved101 | reserved110 | reserved111 => rfl
  · exact fun ⟨_, h⟩ => decoded_of_step_outside h
  · exact fun ⟨_, _, hq, hr, hd, hw⟩ => step_outside hq hr hd hw

/-- Settles O51: with an op of at most 4, a record that decodes is the request of what it decodes to. -/
theorem wrongOperandIsRefused : Obligations.WrongOperandIsRefused := by
  intro s q hq hr hop hno
  cases hd : decode q with
  | error why => exact ⟨why, step_malformed hq hr hd⟩
  | ok i =>
    have hiop : i.op.toNat ≤ 4 := Laws.op_of_decode hd ▸ hop
    exact absurd (encodeOfDecodeIsTheRequest q i hd hiop).symm (hno i)

/-! ### Reserved op codes -/

theorem eq_of_reserved : ∀ op : BitVec 3,
    5 ≤ op.toNat → op = 0b101#3 ∨ op = 0b110#3 ∨ op = 0b111#3 := by decide

/-- A reserved op code decodes, whatever operands come with it, to an instruction outside no bound that
answers with the code (R71, R205, R208). -/
theorem decode_of_reserved {q : RawRequest} (h : 5 ≤ q.op.toNat) :
    ∃ i, decode q = .ok i ∧ (∀ p, i.wellFormed p = true) ∧
      ∀ s, ClosedForm.response s i = .error (.illegalOperation q.op) := by
  obtain ⟨op, ch, slots, text⟩ := q
  obtain rfl | rfl | rfl := eq_of_reserved op h
  · exact ⟨.reserved101, rfl, fun _ => rfl, fun _ => rfl⟩
  · exact ⟨.reserved110, rfl, fun _ => rfl, fun _ => rfl⟩
  · exact ⟨.reserved111, rfl, fun _ => rfl, fun _ => rfl⟩

/-- Settles O35: a reserved code decodes to its own row, which answers so; and an operation that answers so
has a reserved code, which is the request's. -/
theorem illegalOperationIsRaisedForReservedCodesOnly :
    Obligations.IllegalOperationIsRaisedForReservedCodesOnly := by
  intro s q hq hr
  have hstep (hop : 5 ≤ q.op.toNat) : step s = .next (answered (.error (.illegalOperation q.op)) s) := by
    obtain ⟨i, hd, hw, hresponse⟩ := decode_of_reserved hop
    rw [step_answers hq hr hd (hw s.params), hresponse]
  refine ⟨⟨fun hop => ⟨q.op, hstep hop⟩, fun ⟨op, h⟩ => ?_⟩, hstep⟩
  obtain ⟨hnone, -⟩ | ⟨q', i, hq', -, hd, -, hexec⟩ := step_cases h
  · cases hq.symm.trans hnone
  · obtain rfl := Option.some.inj (hq.symm.trans hq')
    obtain ⟨hiop, hcode⟩ := eachErrorHasItsOperationAndCause i s _ _ hexec rfl
    rwa [Laws.op_of_decode hd, hiop]

/-! ### The caller -/

theorem step_present {s : State} {q : RawRequest} {rest : List CallerAction} (hq : s.request = none)
    (h : s.script = .present q :: rest) :
    step s = .next { s with script := rest, request := some q } := by
  rw [step_idle hq, callerMove, h]
  rfl

theorem step_takeResponse {s : State} {rest : List CallerAction} (hq : s.request = none)
    (h : s.script = .takeResponse :: rest) :
    step s = .next { s with
      script := rest, response := none, received := s.received ++ s.response.toList } := by
  rw [step_idle hq, callerMove, h]
  rfl

/-- Settles O52: with no request in progress the step is the caller's move, which is its next action. -/
theorem callerMovesBetweenOperations : Obligations.CallerMovesBetweenOperations := by
  refine fun s hq => ⟨fun h => ?_, fun q rest => step_present hq, fun rest => step_takeResponse hq⟩
  rw [step_idle hq, callerMove, h]

/-! ### One request after another -/

/-- A run goes on from where its first step leads. -/
theorem run_succ_of_step {s t : State} (h : step s = .next t) (n : Nat) :
    Host.Core.run core (n + 1) s = Host.Core.run core n t := by
  have hcore : core.step s = .next t := h
  simp only [Host.Core.run, hcore]

theorem answered_of_resting (r : Response) {s : State} (h : Resting s) :
    answered r s = { s with request := none, response := some r } := by
  obtain ⟨hk, hslot, hframe, hj⟩ := h
  simp only [answered, hk, hslot, hframe, hj]

/-- The step that answers a request of an instruction at rest (R32, R245). -/
theorem step_request {s : State} {i : Instr} (hrest : Resting s) (hq : s.request = some (encode i))
    (hr : s.response = none) (hw : i.wellFormed s.params = true) :
    step s = .next { s with request := none, response := some (ClosedForm.response s i) } := by
  rw [step_answers hq hr (decodeOfEncodeIsTheInstruction i) hw, answered_of_resting _ hrest]

/-- One request presented, run and its response taken: three steps, from rest to rest (R60, R241, R245). -/
theorem run_one_request {s : State} {i : Instr} {rest : List CallerAction} (hrest : Resting s)
    (hq : s.request = none) (hr : s.response = none) (hw : i.wellFormed s.params = true) (n : Nat) :
    Host.Core.run core (n + 3) { s with script := .present (encode i) :: .takeResponse :: rest } =
      Host.Core.run core n
        { s with script := rest, received := s.received ++ [ClosedForm.response s i] } := by
  have hresponse : ClosedForm.response
      { s with script := .takeResponse :: rest, request := some (encode i) } = ClosedForm.response s :=
    response_congr rfl rfl
  have hpresent : step { s with script := .present (encode i) :: .takeResponse :: rest } =
      .next { s with script := .takeResponse :: rest, request := some (encode i) } :=
    step_present hq rfl
  have hanswer : step { s with script := .takeResponse :: rest, request := some (encode i) } =
      .next { s with
        script := .takeResponse :: rest, request := none
        response := some (ClosedForm.response s i) } := by
    rw [← hresponse]
    exact step_request hrest rfl hr hw
  have htake : step { s with
        script := .takeResponse :: rest, request := none
        response := some (ClosedForm.response s i) } =
      .next { s with script := rest, received := s.received ++ [ClosedForm.response s i] } := by
    rw [step_takeResponse rfl rfl]
    simp only [Option.toList_some, hq, hr]
  exact (run_succ_of_step hpresent _).trans
    ((run_succ_of_step hanswer _).trans (run_succ_of_step htake n))

/-- Settles O56: request by request, each answered as if first since the response reads the table and the
parameters alone. -/
theorem requestsAreAnsweredInOrder : Obligations.RequestsAreAnsweredInOrder := by
  intro is s rest hrest hq hr hw
  induction is generalizing s with
  | nil => simp [Host.Core.run]
  | cons i is ih =>
    obtain ⟨hi, his⟩ := List.forall_mem_cons.mp hw
    have hothers := ih { s with received := s.received ++ [ClosedForm.response s i] } hrest hq hr his
    rw [response_congr (t := s) rfl rfl, List.append_assoc] at hothers
    exact (run_one_request hrest hq hr hi _).trans hothers

end Sys2Proof.Machine
end

section
/-! PROOFS. The table's domain (R101, R102, R105) and the single steps of the scan left (R24, R143, R146). -/

namespace Sys2Proof.Machine

/-! ### The domain of the table -/

/-- Settles O3: the space has one of the fixed entries (R103), and it is the sentinel's value. -/
theorem blankSentinelEqualsSpaceEntry : Obligations.BlankSentinelEqualsSpaceEntry :=
  ⟨rfl, reset_tableRead (by decide)⟩

/-- Settles O5: a code of the domain is an index of the table above `0x20`, and each is one. -/
theorem tableDomainIsThePrintableCodes : Obligations.TableDomainIsThePrintableCodes := by
  refine fun s => ⟨fun i => ?_, fun c hc => tableRead_unsupported s c fun h => ?_⟩
  · have hcode : (BitVec.ofNat 32 (0x20 + i.val)).toNat = 0x20 + i.val := by
      rw [BitVec.toNat_ofNat]
      omega
    have hindex : (BitVec.ofNat 32 (0x20 + i.val)).toNat - 0x20 = i.val := by omega
    rw [tableRead_supported s _ (by omega)]
    simp only [hindex, Fin.getElem_fin]
  · have hcode : 0x20 + (c.toNat - 0x20) = c.toNat := by omega
    refine hc ⟨c.toNat - 0x20, by omega⟩ ?_
    rw [hcode, BitVec.ofNat_toNat, BitVec.setWidth_eq]

theorem supported_of_tableRead {s : State} {c : Ch} (h : s.tableRead c ≠ none) :
    0x20 ≤ c.toNat ∧ c.toNat ≤ 0x7E := by
  rwa [ne_eq, tableRead_eq_none_iff, not_not] at h

/-- Settles O6: supported codes fit 8 bits, so two of them with the same low 8 bits are the same. -/
theorem wideCodesNeverAliasTableEntries : Obligations.WideCodesNeverAliasTableEntries := by
  intro s c d hd hne hlow
  by_contra hc
  obtain ⟨-, hc8⟩ := supported_of_tableRead hc
  obtain ⟨-, hd8⟩ := supported_of_tableRead (Option.isSome_iff_ne_none.mp hd)
  have hmod : c.toNat % 2 ^ 8 = d.toNat % 2 ^ 8 := by
    simpa only [BitVec.toNat_setWidth] using congrArg BitVec.toNat hlow
  exact hne (BitVec.eq_of_toNat_eq (by omega))

/-! ### One character -/

/-- Settles O19: with `k = 0` a period is dropped. -/
theorem leadingPeriodIsDropped : Obligations.LeadingPeriodIsDropped := by
  intro s j hk hj
  have hperiod : isPeriod 0x2E#32 = true := rfl
  have hnone : (0 : Fin 5).val = 0 := rfl
  simp only [scanChar, readK_of_some hk, readJ_of_some hj, bind, Except.bind, hperiod, if_true,
    dif_pos hnone]
  rfl

/-- Settles O22: with `k = 4` the slot bound stops a consumer before the table is read, and a period attaches
to slot 3 as to any last slot. -/
theorem fifthConsumerRaisesTextTooLong : Obligations.FifthConsumerRaisesTextTooLong := by
  refine fun s j hk hj => ⟨fun c hc => ?_, fun v hv => scanChar_period_of_succ (i := 3) hk hj hv⟩
  have hfull : ¬(4 : Fin 5).val < 4 := Nat.lt_irrefl 4
  simp only [scanChar, readK_of_some hk, readJ_of_some hj, bind, Except.bind, isPeriod_eq_false hc,
    Bool.false_eq_true, if_false, dif_neg hfull]

/-- Settles O24: the read matches on the entry. -/
theorem emptySlotReadFaults : Obligations.EmptySlotReadFaults := by
  intro s i h
  rw [State.readSlot, h]

end Sys2Proof.Machine
end
